-- ==== Sys2Proof/Word.lean ====
section
/-! DEFINITION. The word types of the block and their plainest conversions. -/

namespace Sys2Proof

/-- A host register and a command word: 32 bits (R37, R52). -/
abbrev Word := BitVec 32

/-- One byte of a frame (R24). -/
abbrev Byte := BitVec 8

/-- `DUR_W`, the width of every duration, budget and elapsed counter (R7; log 23). -/
abbrev durW : Nat := 16

/-- `RD_W`, the width of `HUM` and `TEMP` (R7; log 23). -/
abbrev rdW : Nat := 16

/-- `NBITS`, the data bits of a frame (R7: fixed, not a parameter a model may vary; log 23). -/
abbrev nBits : Nat := 40

/-- `NBYTES`, the bytes of a frame (R7: fixed; log 23). -/
abbrev nBytes : Nat := 5

/-- A duration, budget or delay register (R7, R19 to R22, R32). -/
abbrev Dur := BitVec durW

/-- A reading in tenths (R7, R25). -/
abbrev Reading := BitVec rdW

/-- The bits of a frame in order of arrival (R7, R23). -/
abbrev BitBuffer := BitVec nBits

end Sys2Proof
end

