-- ==== Sys2Proof/Config.lean ====
section
/-! DEFINITION. The implementation parameters of R7 and the one free value: the level of the line. -/

namespace Sys2Proof

/-- What the block drives onto the pad: `LINE` of R16, two bits. -/
structure Pad where
  /-- `pin_oe`: the block drives the pad. -/
  oe : Bool
  /-- `pin_out`: the level driven when `pin_oe` is 1. -/
  out : Bool
  deriving DecidableEq, Repr

/-- `LINE` = Z: input, high-impedance (R16). -/
abbrev Pad.Z : Pad := ⟨false, false⟩

/-- `LINE` = L: driven low (R16). -/
abbrev Pad.L : Pad := ⟨true, false⟩

/-- `LINE` = H: driven high (R16). -/
abbrev Pad.H : Pad := ⟨true, true⟩

/-- The parameters of R7. They are fixed for a machine: no step changes them (log 1).
`BASE` is left out, the model knows offsets only (log 13). -/
structure Config where
  /-- `POLL_US`, the polling interval in microseconds. -/
  pollUs : Nat
  /-- `START_LOW_US`, how long StartPulse drives low. -/
  startLowUs : Nat
  /-- `START_HIGH_US`, how long StartPulse then drives high. -/
  startHighUs : Nat
  /-- `T_ACK_DEFAULT`. -/
  tAckDefault : Nat
  /-- `T_READY_DEFAULT`. -/
  tReadyDefault : Nat
  /-- `T_DSTART_DEFAULT`. -/
  tDstartDefault : Nat
  /-- `T_BITLOW_DEFAULT`. -/
  tBitLowDefault : Nat
  /-- `T_BITHIGH_DEFAULT`. -/
  tBitHighDefault : Nat
  /-- `NBITS`, data bits per frame; fixed (log 23). -/
  nBits : Nat
  /-- `NBYTES`, bytes per frame; fixed (log 23). -/
  nBytes : Nat
  /-- `DUR_W`, the width of durations, budgets and counters (log 23). -/
  durW : Nat
  /-- `RD_W`, the width of `HUM` and `TEMP` (log 23). -/
  rdW : Nat
  /-- `PIN_W`, the width of the pin handle. -/
  pinW : Nat
  /-- `MIN_GAP_US`, the host's duty between acquisitions; the block never reads it (R152). -/
  minGapUs : Nat
  deriving DecidableEq, Repr

/-- The default parameters of R7. DESIGN CHOICE, unsafe: `MIN_GAP_US` is open in the spec, the recommended
2000000 is taken (log 14). -/
def Config.default : Config :=
  { pollUs := 2, startLowUs := 18000, startHighUs := 1
    tAckDefault := 40, tReadyDefault := 80, tDstartDefault := 80, tBitLowDefault := 65, tBitHighDefault := 75
    nBits := 40, nBytes := 5, durW := 16, rdW := 16
    pinW := 8, minGapUs := 2000000 }

/-- The legal ranges of R7; the five budget defaults are the document's constants, and the sizes that R7 gives one value are the sizes
of the types (log 23). -/
abbrev Config.Legal (c : Config) : Prop :=
  (1 ≤ c.pollUs ∧ c.pollUs ≤ 6) ∧ (18000 ≤ c.startLowUs ∧ c.startLowUs ≤ 65535) ∧ c.startHighUs ≤ 65535 ∧
  (c.tAckDefault = 40 ∧ c.tReadyDefault = 80 ∧ c.tDstartDefault = 80 ∧ c.tBitLowDefault = 65 ∧ c.tBitHighDefault = 75) ∧
  (c.nBits = Sys2Proof.nBits ∧ c.nBytes = Sys2Proof.nBytes ∧ c.durW = Sys2Proof.durW ∧ c.rdW = Sys2Proof.rdW) ∧
  (1 ≤ c.pinW ∧ c.pinW ≤ 32) ∧ 1000000 ≤ c.minGapUs

/-- FREE VALUE (log 4). The level `pin_in` has when the given stimulus does not say: R9 leaves it to the environment,
which may answer everything the block has driven so far (the first argument, latest first) and may change with time
(the second argument, the environment's clock). It has no body: a claim holds whatever it is. -/
opaque Config.freeLine : List (Nat × Pad) → Nat → Bool

end Sys2Proof
end

