-- ==== Sys2Proof/Syntax.lean ====
section
/-! DEFINITION. The five commands of the opcode map (R60) and the actions of a host program (R67). -/

namespace Sys2Proof

/-- One constructor per row of the opcode map (R60). -/
inductive Instr where
  /-- DRVL, `drive_low()` (R86). -/
  | drvl
  /-- DRVH, `drive_high()` (R87). -/
  | drvh
  /-- REL, `release_to_input()` (R88). -/
  | rel
  /-- AWAIT: the expected level (`true` = high) and the budget, a count of microseconds (R82). -/
  | await (level : Bool) (budget : Nat)
  /-- ACQ: whether humidity and whether temperature is requested (R93). -/
  | acq (wantH wantT : Bool)
  deriving DecidableEq, Repr

/-- The width of a host access. Only a word access has a meaning (R40). -/
inductive Size where
  | byte
  | half
  | word
  deriving DecidableEq, Repr

/-- What the host or the platform does to the block, one action at a time (R67, R148). -/
inductive HostAction where
  /-- `RegWrite(off, v)` at an access width. -/
  | write (size : Size) (off : Nat) (v : Word)
  /-- `RegRead(off)` at an access width. -/
  | read (size : Size) (off : Nat)
  /-- `WAIT`: repeat `RD STATUS` until `BUSY = 0` (R67). -/
  | wait
  /-- `GAP n`: let n microseconds pass with no register access (R67). -/
  | gap (n : Nat)
  /-- The platform drives the port `rst` to a level: asserts it, or releases it (R17, R148). -/
  | rst (asserted : Bool)
  deriving DecidableEq, Repr

end Sys2Proof
end

