-- ==== Sys2Proof/WellFormed.lean ====
section
/-! DEFINITION. Which terms stand for a command word the encoding can carry, and which host accesses have a meaning. -/

namespace Sys2Proof

/-- An instruction whose operands fit the fields of its format: `BUDGET` has 16 bits (R55, R57); `LEVEL`, `WANT_H`
and `WANT_T` are one bit each by their type. -/
abbrev Instr.WellFormed : Instr → Prop
  | .drvl => True
  | .drvh => True
  | .rel => True
  | .await _ budget => budget < 65536
  | .acq _ _ => True

/-- The offsets of the register map: 0x00, 0x04, ..., 0x30 (R38, R40). -/
abbrev MappedOffset (off : Nat) : Prop := off % 4 = 0 ∧ off ≤ 48

/-- A host action to which R40 gives a meaning: register accesses are aligned words inside the map. -/
abbrev HostAction.WellFormed : HostAction → Prop
  | .write size off _ => size = .word ∧ MappedOffset off
  | .read size off => size = .word ∧ MappedOffset off
  | .wait => True
  | .gap _ => True
  | .rst _ => True

end Sys2Proof
end

