-- ==== Sys2Proof/Decode.lean ====
section
/-! DEFINITION. The decoder of command words, total, rejecting by name (R52 to R65), and after it the encoder. -/

namespace Sys2Proof

/-- Why a word is no command. -/
inductive Reject where
  /-- OP is 0x0 or 0x6 to 0xF (R61). -/
  | opcode
  /-- OP is 0x1 to 0x5 and a reserved bit of its format is 1 (R62). -/
  | reservedBits
  deriving DecidableEq, Repr

/-- What the decoder answers: a command, or a rejection by name. -/
inductive Decoded where
  | command (i : Instr)
  | illegal (r : Reject)
  deriving DecidableEq, Repr

/-- The field OP, bits 31:28, of every format (R54, R55, R56). -/
def opField (w : Word) : BitVec 4 := w.extractLsb' 28 4

/-- The reserved bits 27:0 of format N (R54). -/
def reservedN (w : Word) : BitVec 28 := w.extractLsb' 0 28

/-- The reserved bits 27:17 of format W (R55). -/
def reservedW (w : Word) : BitVec 11 := w.extractLsb' 17 11

/-- The reserved bits 27:2 of format Q (R56). -/
def reservedQ (w : Word) : BitVec 26 := w.extractLsb' 2 26

/-- The field LEVEL, bit 16 (R58). -/
def levelField (w : Word) : Bool := w.getLsbD 16

/-- The field BUDGET, bits 15:0, unsigned and unscaled (R57). -/
def budgetField (w : Word) : Nat := (w.extractLsb' 0 16).toNat

/-- The field WANT_H, bit 0 (R59). -/
def wantHField (w : Word) : Bool := w.getLsbD 0

/-- The field WANT_T, bit 1 (R59). -/
def wantTField (w : Word) : Bool := w.getLsbD 1

/-- The command a word stands for, or why it stands for none (R60, R61, R62). -/
def decode (w : Word) : Decoded :=
  if opField w = 1#4 then
    if reservedN w = 0#28 then .command .drvl else .illegal .reservedBits
  else if opField w = 2#4 then
    if reservedN w = 0#28 then .command .drvh else .illegal .reservedBits
  else if opField w = 3#4 then
    if reservedN w = 0#28 then .command .rel else .illegal .reservedBits
  else if opField w = 4#4 then
    if reservedW w = 0#11 then .command (.await (levelField w) (budgetField w)) else .illegal .reservedBits
  else if opField w = 5#4 then
    if reservedQ w = 0#26 then .command (.acq (wantHField w) (wantTField w)) else .illegal .reservedBits
  else .illegal .opcode

/-- The instruction the decoder reads from a table word: every command is one 32-bit word (R52), delivered whole by one
`CMD` write, so no byte order shows. Bits above `nbits` are 0. -/
def decodeTableWord (nbits w : Nat) : Option Instr :=
  match decode (BitVec.ofNat 32 (w % 2 ^ nbits)) with
  | .command i => some i
  | .illegal _ => none

/-! The encoder, written from the format tables. -/

/-- Format N: OP and 28 reserved zeros (R54). -/
def encodeN (op : BitVec 4) : Word := op ++ 0#28

/-- Format W: OP, 11 reserved zeros, LEVEL, BUDGET (R55). -/
def encodeW (level : Bool) (budget : Nat) : Word :=
  4#4 ++ 0#11 ++ BitVec.ofBool level ++ BitVec.ofNat 16 budget

/-- Format Q: OP, 26 reserved zeros, WANT_T, WANT_H (R56). -/
def encodeQ (wantH wantT : Bool) : Word :=
  5#4 ++ 0#26 ++ BitVec.ofBool wantT ++ BitVec.ofBool wantH

/-- The word of a well-formed instruction (R60). -/
def encode : Instr → Word
  | .drvl => encodeN 1#4
  | .drvh => encodeN 2#4
  | .rel => encodeN 3#4
  | .await level budget => encodeW level budget
  | .acq wantH wantT => encodeQ wantH wantT

/-- One row of the opcode map: `w` selects it when `w &&& mask = pattern` (R60). -/
structure Row where
  mnemonic : String
  pattern : Word
  mask : Word
  deriving DecidableEq, Repr

/-- The opcode map as R60 writes it, for holding the decoder against it. -/
def opcodeMap : List Row :=
  [ ⟨"DRVL", 0x10000000#32, 0xFFFFFFFF#32⟩
  , ⟨"DRVH", 0x20000000#32, 0xFFFFFFFF#32⟩
  , ⟨"REL", 0x30000000#32, 0xFFFFFFFF#32⟩
  , ⟨"AWAIT", 0x40000000#32, 0xFFFE0000#32⟩
  , ⟨"ACQ", 0x50000000#32, 0xFFFFFFFC#32⟩ ]

/-- `w` selects the row. -/
abbrev Row.Selects (r : Row) (w : Word) : Prop := w &&& r.mask = r.pattern

/-- The mnemonic of an instruction (R60). -/
def Instr.mnemonic : Instr → String
  | .drvl => "DRVL"
  | .drvh => "DRVH"
  | .rel => "REL"
  | .await _ _ => "AWAIT"
  | .acq _ _ => "ACQ"

end Sys2Proof
end

