-- ==== Sys2Proof/Machine/State.lean ====
section
/-! DEFINITION. The state of the block (R12 to R35), grouped by unit, the reasons a step can stop, and the state after reset. -/

namespace Sys2Proof.Machine

/-- The stages of the sequencer, in the order of R13 (Idle is 0). -/
inductive Stage where
  | idle
  | startPulse
  | awaitSensorAck
  | awaitSensorReady
  | awaitDataStart
  | readBit
  | checksum
  | done
  deriving DecidableEq, Repr

/-- The error a command completed with (R125). Code 7 is reserved and never produced, so it has no name. -/
inductive ErrCode where
  | none
  | invalidArgument
  | handshakeTimeout
  | bitTimeout
  | checksumMismatch
  | timeoutError
  | illegalCommand
  deriving DecidableEq, Repr

/-- The sequencer register `SEQ` (R12). -/
structure Seq where
  stage : Stage
  sub : Bool
  bitIdx : BitVec 6
  deriving DecidableEq, Repr

/-- The Edge Timer's registers (R19, R20). -/
structure EdgeTimer where
  /-- `ET_ELAPSED`, read by the host as `DUR`. -/
  elapsed : Dur
  /-- `ET_BUDGET`. -/
  budget : Dur
  /-- `ET_LEVEL`, the expected level. -/
  level : Bool
  /-- `ET_RUN`. -/
  run : Bool
  /-- `POLLCNT`, microseconds since the last sample instant. -/
  pollCnt : BitVec 3
  deriving DecidableEq, Repr

/-- The Frame Decoder's hidden registers (R22, R23, R26). Bit i of `bitBuf` is `BITBUF[i]`, the i-th to arrive. -/
structure Decoder where
  lowDur : Dur
  highDur : Dur
  bitBuf : BitBuffer
  wantH : Bool
  wantT : Bool
  deriving DecidableEq, Repr

/-- A frame of five bytes, `FRAME[0]` to `FRAME[4]` (R24). -/
structure Frame where
  b0 : Byte
  b1 : Byte
  b2 : Byte
  b3 : Byte
  b4 : Byte
  deriving DecidableEq, Repr

/-- The all-zero frame. -/
abbrev Frame.zero : Frame := ⟨0#8, 0#8, 0#8, 0#8, 0#8⟩

/-- What a command delivers: the frame, the Reading and its valid flags (R24, R25, R27). -/
structure Results where
  frame : Frame
  hum : Reading
  temp : Reading
  hvalid : Bool
  tvalid : Bool
  deriving DecidableEq, Repr

/-- No result. -/
abbrev Results.clear : Results := ⟨Frame.zero, 0#16, 0#16, false, false⟩

/-- The flags that are no result (R27). -/
structure Flags where
  busy : Bool
  done : Bool
  atomic : Bool
  ovr : Bool
  deriving DecidableEq, Repr

/-- `ERR` and `ERR_INFO` (R28). -/
structure ErrReg where
  code : ErrCode
  info : BitVec 6
  deriving DecidableEq, Repr

/-- No error. -/
abbrev ErrReg.clear : ErrReg := ⟨.none, 0#6⟩

/-- The registers the host can write: `PIN` (R31; its bits above `PIN_W` are 0) and the five budgets (R32). -/
structure Regs where
  pin : Word
  tAck : Dur
  tReady : Dur
  tDstart : Dur
  tBitLow : Dur
  tBitHigh : Dur
  deriving DecidableEq, Repr

/-- Which of the registers that carry a command's outcome the host has read since the command completed (R162; log 24). -/
structure Seen where
  status : Bool
  dur : Bool
  hum : Bool
  temp : Bool
  deriving DecidableEq, Repr

/-- Nothing read yet. -/
abbrev Seen.nothing : Seen := ⟨false, false, false, false⟩

/-- The host's end of the register bus. All fields are the model's own (logs 3, 5 and 24). -/
structure Bus where
  /-- What the host and the platform will do, in order. -/
  script : List HostAction
  /-- The data the last `RegRead` returned. -/
  rdata : Word
  /-- What the host has read of the outcome since its last write to `CMD`. No rule of the block reads it. -/
  seen : Seen
  deriving DecidableEq, Repr

/-- The outside of the pin. All fields are the model's own (logs 4, 6 and 14). -/
structure Env where
  /-- Microseconds since the model began; `rst` does not restart it. -/
  clock : Nat
  /-- The given part of the line: from the instant of an entry on, the line is at its level, until a later entry. -/
  stim : List (Nat × Bool)
  /-- What the Line Driver and reset have put on the pad, latest first. -/
  drives : List (Nat × Pad)
  /-- The instant at which the last acquisition ended, or `rst` was released (R150, R152). -/
  lastEnd : Nat
  deriving DecidableEq, Repr

/-- The whole state (R35), with the parameters (R7), the level of the port `rst` (R17, R148), the host's end of the bus and the
environment. -/
structure State where
  cfg : Config
  /-- The port `rst` is asserted: every element of the block is held at its reset value (R148). -/
  rst : Bool
  seq : Seq
  pad : Pad
  et : EdgeTimer
  dly : Dur
  dec : Decoder
  res : Results
  flags : Flags
  err : ErrReg
  regs : Regs
  now : Nat
  bus : Bus
  env : Env
  deriving DecidableEq, Repr

/-- Why the machine stops with a fault. -/
inductive Fault where
  /-- Raised by the tick: the block is busy in a state that no row of R115 leaves. No run from reset reaches such a
  state. Safe: the model stops where the spec gives no transition (log 10). -/
  | noTransition
  deriving DecidableEq, Repr

/-- Why the model gives no meaning. -/
inductive Refusal where
  /-- Raised by an arm of exec whose instruction has no meaning yet; no arm raises it now. Safe. -/
  | notModelled (mnemonic : String)
  /-- Raised by a host access that is not an aligned 32-bit access inside the map: R40 says it has no meaning and that a
  model refuses it. Safe (log 7). -/
  | undefinedAccess
  deriving DecidableEq, Repr

/-- The five budgets at their defaults and `PIN` at 0 (R35). -/
def Regs.initial (c : Config) : Regs :=
  { pin := 0#32, tAck := BitVec.ofNat 16 c.tAckDefault, tReady := BitVec.ofNat 16 c.tReadyDefault
    tDstart := BitVec.ofNat 16 c.tDstartDefault, tBitLow := BitVec.ofNat 16 c.tBitLowDefault
    tBitHigh := BitVec.ofNat 16 c.tBitHighDefault }

/-- The reset state of a machine with parameters `c` (R35), with nothing to come and nothing known of the line. -/
def State.initial (c : Config) : State :=
  { cfg := c
    rst := false
    seq := ⟨.idle, false, 0#6⟩
    pad := Pad.Z
    et := ⟨0#16, 0#16, false, false, 0#3⟩
    dly := 0#16
    dec := ⟨0#16, 0#16, 0#40, false, false⟩
    res := Results.clear
    flags := ⟨false, false, false, false⟩
    err := ErrReg.clear
    regs := Regs.initial c
    now := 0
    bus := ⟨[], 0#32, Seen.nothing⟩
    env := ⟨0, [], [], 0⟩ }

/-- The machine right after reset, `rst` released, with the default parameters (R7, R35). -/
def State.reset : State := State.initial Config.default

/-! One update per group of the state; every operation is written with these. -/

/-- Drive the port `rst`. -/
def State.setRst (s : State) (r : Bool) : State := { s with rst := r }
/-- Write `SEQ`. -/
def State.setSeq (s : State) (q : Seq) : State := { s with seq := q }
/-- Write `LINE`. -/
def State.setPad (s : State) (p : Pad) : State := { s with pad := p }
/-- Write the Edge Timer's registers. -/
def State.setEt (s : State) (e : EdgeTimer) : State := { s with et := e }
/-- Write `DLY`. -/
def State.setDly (s : State) (d : Dur) : State := { s with dly := d }
/-- Write the Frame Decoder's hidden registers. -/
def State.setDec (s : State) (d : Decoder) : State := { s with dec := d }
/-- Write the results. -/
def State.setRes (s : State) (r : Results) : State := { s with res := r }
/-- Write the flags. -/
def State.setFlags (s : State) (f : Flags) : State := { s with flags := f }
/-- Write `ERR` and `ERR_INFO`. -/
def State.setErr (s : State) (e : ErrReg) : State := { s with err := e }
/-- Write the host-writable registers. -/
def State.setRegs (s : State) (r : Regs) : State := { s with regs := r }
/-- Write `now`. -/
def State.setNow (s : State) (n : Nat) : State := { s with now := n }
/-- Write the host's end of the bus. -/
def State.setBus (s : State) (b : Bus) : State := { s with bus := b }
/-- Write the environment. -/
def State.setEnv (s : State) (e : Env) : State := { s with env := e }

end Sys2Proof.Machine
end

