-- ==== Sys2Proof/Machine/Operands.lean ====
section
/-! DEFINITION. The registers of the map, how an access names one, the host views of wide values, and the pure functions
of the Frame Decoder on its operands: bit decision, packing, checksum, conversion. -/

namespace Sys2Proof.Machine

/-- The 13 registers of the map (R38). -/
inductive HostReg where
  | cmd
  | status
  | pin
  | tAck
  | tReady
  | tDstart
  | tBitLow
  | tBitHigh
  | dur
  | frameLo
  | frameHi
  | hum
  | temp
  deriving DecidableEq, Repr

/-- The byte offset of a register (R38). -/
def HostReg.offset : HostReg → Nat
  | .cmd => 0x00
  | .status => 0x04
  | .pin => 0x08
  | .tAck => 0x0C
  | .tReady => 0x10
  | .tDstart => 0x14
  | .tBitLow => 0x18
  | .tBitHigh => 0x1C
  | .dur => 0x20
  | .frameLo => 0x24
  | .frameHi => 0x28
  | .hum => 0x2C
  | .temp => 0x30

/-- The registers in the order of the map (R38). -/
def HostReg.all : List HostReg :=
  [.cmd, .status, .pin, .tAck, .tReady, .tDstart, .tBitLow, .tBitHigh, .dur, .frameLo, .frameHi, .hum, .temp]

/-- The register at an offset, none where the map has none (R40). -/
def HostReg.atOffset (off : Nat) : Option HostReg := HostReg.all.find? (fun r => r.offset == off)

/-- The register an access reaches: only an aligned 32-bit access inside the map has a meaning (R40). -/
def HostReg.accessed (size : Size) (off : Nat) : Option HostReg :=
  match size with
  | .word => HostReg.atOffset off
  | .half => none
  | .byte => none

/-- The implemented bits of a value written to `PIN`: the low `PIN_W` (R31). -/
def pinBits (pinW : Nat) (v : Word) : Word := BitVec.ofNat 32 (v.toNat % 2 ^ pinW)

/-- The implemented bits of a value written to a budget register: bits 15:0 (R32). -/
def budgetBits (v : Word) : Dur := v.extractLsb' 0 16

/-- `zext_32` of a 16-bit register (R38). -/
def zext32 (d : BitVec 16) : Word := d.setWidth 32

/-- `sext_32` of a 16-bit register (R38). -/
def sext32 (d : BitVec 16) : Word := d.signExtend 32

/-- `FRAME_LO`: the lower-numbered byte in the less significant lane (R39). -/
def Frame.lo (f : Frame) : Word := f.b3 ++ f.b2 ++ f.b1 ++ f.b0

/-- `FRAME_HI`: `zext_32(FRAME[4])` (R39). -/
def Frame.hi (f : Frame) : Word := f.b4.setWidth 32

/-- The bit decision: 1 exactly when the high phase measured longer than the low phase, unsigned (R102). -/
def decideBit (low high : Dur) : Bool := low.ult high

/-- Write `BITBUF[i]` (R103). An index above 39 names no bit and writes nothing. -/
def writeBit (buf : BitBuffer) (i : Nat) (b : Bool) : BitBuffer :=
  (buf &&& ~~~((1#40) <<< i)) ||| ((BitVec.ofBool b).setWidth 40 <<< i)

/-- Bit `j` of byte `k` counts `2^(7-j)` (R104). -/
def packedBit (buf : BitBuffer) (k j : Nat) : Nat := (buf.getLsbD (8 * k + j)).toNat * 2 ^ (7 - j)

/-- Byte `k` of the packed frame: the first of its eight bits to arrive is the most significant (R104). -/
def packByte (buf : BitBuffer) (k : Nat) : Byte :=
  BitVec.ofNat 8
    (packedBit buf k 0 + packedBit buf k 1 + packedBit buf k 2 + packedBit buf k 3 +
     packedBit buf k 4 + packedBit buf k 5 + packedBit buf k 6 + packedBit buf k 7)

/-- Packing 40 bits into 5 bytes (R104). -/
def pack (buf : BitBuffer) : Frame :=
  ⟨packByte buf 0, packByte buf 1, packByte buf 2, packByte buf 3, packByte buf 4⟩

/-- `FRAME[k]` for k from 0 to 4; there is no other byte (R24). -/
def Frame.byte (f : Frame) (k : Nat) : Byte :=
  match k with
  | 0 => f.b0
  | 1 => f.b1
  | 2 => f.b2
  | 3 => f.b3
  | _ => f.b4

/-- The sum of bytes 0 to 3, exact (R105). -/
def Frame.sum (f : Frame) : Nat := f.b0.toNat + f.b1.toNat + f.b2.toNat + f.b3.toNat

/-- The checksum invariant: byte 4 is the sum of bytes 0 to 3, modulo 256 (R105). -/
def Frame.valid (f : Frame) : Bool := f.b4 == BitVec.ofNat 8 (f.sum % 256)

/-- A byte to tenths, exact in 16 bits (R118). -/
def convert (b : Byte) : Reading := b.setWidth 16 * 10#16

end Sys2Proof.Machine
end

