-- ==== Sys2Proof/Machine/Flags.lean ====
section
/-! DEFINITION. The numeric codes behind `STATUS`, the assembly of `STATUS`, the ports, and every write of a flag: the atomic
window, acceptance, completion, overrun. -/

namespace Sys2Proof.Machine

/-- `STATE` as 3 bits: the row number of the stage table (R13). -/
def Stage.code : Stage → BitVec 3
  | .idle => 0#3
  | .startPulse => 1#3
  | .awaitSensorAck => 2#3
  | .awaitSensorReady => 3#3
  | .awaitDataStart => 4#3
  | .readBit => 5#3
  | .checksum => 6#3
  | .done => 7#3

/-- `ERR` as 3 bits (R125). -/
def ErrCode.code : ErrCode → BitVec 3
  | .none => 0#3
  | .invalidArgument => 1#3
  | .handshakeTimeout => 2#3
  | .bitTimeout => 3#3
  | .checksumMismatch => 4#3
  | .timeoutError => 5#3
  | .illegalCommand => 6#3

/-- `STATUS`, from bit 31 down to bit 0 (R29). -/
def State.statusWord (s : State) : Word :=
  0#2 ++ s.err.info ++ 0#1 ++ s.err.code.code ++ BitVec.ofBool s.pad.oe ++ BitVec.ofBool s.pad.out ++
  s.seq.bitIdx ++ BitVec.ofBool s.seq.sub ++ s.seq.stage.code ++ 0#2 ++
  BitVec.ofBool s.res.tvalid ++ BitVec.ofBool s.res.hvalid ++ BitVec.ofBool s.flags.ovr ++
  BitVec.ofBool s.flags.atomic ++ BitVec.ofBool s.flags.done ++ BitVec.ofBool s.flags.busy

/-! The output ports of R17. -/

/-- Port `pin_out`. -/
def State.portPinOut (s : State) : Bool := s.pad.out
/-- Port `pin_oe`. -/
def State.portPinOe (s : State) : Bool := s.pad.oe
/-- Port `pin_sel`: the `PIN` register (R31). -/
def State.portPinSel (s : State) : Word := s.regs.pin
/-- Port `atomic_window` (R107, R108). -/
def State.portAtomicWindow (s : State) : Bool := s.flags.atomic

/-- `BeginWindow()` (R107). -/
def beginWindow (s : State) : State := s.setFlags { s.flags with atomic := true }

/-- `EndWindow()` (R108). -/
def endWindow (s : State) : State := s.setFlags { s.flags with atomic := false }

/-- A command of some duration begins: `BUSY <- 1` (R27). -/
def markBusy (s : State) : State := s.setFlags { s.flags with busy := true }

/-- A command completes: `BUSY <- 0; DONE <- 1` (R27). A command that completes at its acceptance never set `BUSY`. -/
def complete (s : State) : State := s.setFlags { s.flags with busy := false, done := true }

/-- A write while `BUSY = 1`: dropped, `OVR <- 1`, nothing else (R43). -/
def overrun (s : State) : State := s.setFlags { s.flags with ovr := true }

/-- The clearing lines of acceptance (R53). `PIN`, the budgets, `LINE`, `OVR` and `BITBUF` are not touched. -/
def accept (s : State) : State :=
  (((s.setFlags { s.flags with done := false }).setErr ErrReg.clear).setEt { s.et with elapsed := 0#16 }).setRes
    Results.clear

end Sys2Proof.Machine
end

