-- ==== Sys2Proof/Machine/Ops.lean ====
section
/-! DEFINITION. The operations shared by the commands: time, the line, register reads and writes, reporting an error, the end
of an acquisition, and reset. -/

namespace Sys2Proof.Machine

/-! Time (R8). -/

/-- `n` microseconds pass and nothing else happens: `delay(n)` of 00_scope.md section 5. The environment's clock runs along. -/
def passTime (n : Nat) (s : State) : State :=
  (s.setNow (s.now + n)).setEnv { s.env with clock := s.env.clock + n }

/-! The line (R9, R16, R18). -/

/-- The level a stimulus gives at an instant: that of the last entry, in list order, that has begun. -/
def stimLevel : List (Nat × Bool) → Nat → Option Bool
  | [], _ => none
  | (start, level) :: rest, t =>
    match stimLevel rest t with
    | some l => some l
    | none => if start ≤ t then some level else none

/-- `line(t)` for an instant of the environment's clock: the given stimulus, else a free value (R9; log 4). Nothing is
assumed about a pad the block drives (R18). -/
def Env.lineAt (e : Env) (t : Nat) : Bool :=
  match stimLevel e.stim t with
  | some l => l
  | none => Config.freeLine e.drives t

/-- The level of `pin_in` now. -/
def State.line (s : State) : Bool := s.env.lineAt s.env.clock

/-- The Line Driver writes `LINE` (R84): direction and level, at once, without failing. The environment sees it. -/
def drivePad (p : Pad) (s : State) : State :=
  (s.setPad p).setEnv { s.env with drives := (s.env.clock, p) :: s.env.drives }

/-- `DriveLow()` (R86). -/
def driveLow (s : State) : State := drivePad Pad.L s

/-- `DriveHigh()` (R87). -/
def driveHigh (s : State) : State := drivePad Pad.H s

/-- `Release()` (R88). -/
def release (s : State) : State := drivePad Pad.Z s

/-! Reporting an error and ending an acquisition: the block's whole exception model (R136). There is no return from an error:
`accept`, at the next command, clears it (R139). -/

/-- `ERR <- code; ERR_INFO <- info` (R28). -/
def raiseErr (code : ErrCode) (info : BitVec 6) (s : State) : State := s.setErr ⟨code, info⟩

/-- `finish()`: the common end of every acquisition that passed its argument check (R111). The instant is noted for the
host's gap (R152). -/
def finish (s : State) : State :=
  let t := complete ((driveHigh s).setSeq ⟨.idle, false, 0#6⟩)
  t.setEnv { t.env with lastEnd := t.env.clock }

/-- `fail(code, info)`: the window first, then the error, then `finish()` (R110). -/
def fail (code : ErrCode) (info : BitVec 6) (s : State) : State := finish (raiseErr code info (endWindow s))

/-- An illegal word accepted when `BUSY = 0` (R63): results cleared, IllegalCommand, done. -/
def illegalCommand (s : State) : State := complete (raiseErr .illegalCommand 0#6 (accept s))

/-- A register write that reaches the block: without effect while `rst` is asserted (R148), dropped with `OVR` while `BUSY = 1`
(R43), else it does `body`. -/
def writeGate (body : State → State) (s : State) : State :=
  if s.rst then s else if s.flags.busy then overrun s else body s

/-- A command word that decodes, delivered in state `s`: accepted (R53) and executed, if writes have an effect. -/
def command (body : State → State) (s : State) : State := writeGate (fun t => body (accept t)) s

/-! Register reads and writes (R38 to R44). -/

/-- `RegRead` of a register: a pure view of the state (R42). -/
def readReg (r : HostReg) (s : State) : Word :=
  match r with
  | .cmd => 0#32
  | .status => s.statusWord
  | .pin => s.regs.pin
  | .tAck => zext32 s.regs.tAck
  | .tReady => zext32 s.regs.tReady
  | .tDstart => zext32 s.regs.tDstart
  | .tBitLow => zext32 s.regs.tBitLow
  | .tBitHigh => zext32 s.regs.tBitHigh
  | .dur => zext32 s.et.elapsed
  | .frameLo => s.res.frame.lo
  | .frameHi => s.res.frame.hi
  | .hum => sext32 s.res.hum
  | .temp => sext32 s.res.temp

/-- `RegWrite` of a register other than `CMD` with `BUSY = 0`: implemented bits change at once (R31, R32); a read-only
register ignores it (R42). -/
def writeReg (r : HostReg) (v : Word) (s : State) : State :=
  match r with
  | .pin => s.setRegs { s.regs with pin := pinBits s.cfg.pinW v }
  | .tAck => s.setRegs { s.regs with tAck := budgetBits v }
  | .tReady => s.setRegs { s.regs with tReady := budgetBits v }
  | .tDstart => s.setRegs { s.regs with tDstart := budgetBits v }
  | .tBitLow => s.setRegs { s.regs with tBitLow := budgetBits v }
  | .tBitHigh => s.setRegs { s.regs with tBitHigh := budgetBits v }
  | .cmd => s
  | .status => s
  | .dur => s
  | .frameLo => s
  | .frameHi => s
  | .hum => s
  | .temp => s

/-! Reset (R148, R150). -/

/-- `rst` is asserted: every element holds its reset value, whatever ran (R148, R150). The parameters, the host's side of the bus
and the environment are outside the block and stay (log 6); the environment sees the line released. -/
def assertReset (s : State) : State :=
  (((State.initial s.cfg).setRst true).setBus s.bus).setEnv
    { s.env with drives := (s.env.clock, Pad.Z) :: s.env.drives, lastEnd := s.env.clock }

/-- `rst` is released: every element stays at its reset value, and from here the block runs. The sensor's gap counts from the
release (R150). -/
def releaseReset (s : State) : State := (s.setRst false).setEnv { s.env with lastEnd := s.env.clock }

/-- The platform drives `rst` to a level. Driving it to the level it has changes nothing. -/
def driveRst (asserted : Bool) (s : State) : State :=
  if asserted = s.rst then s else if asserted then assertReset s else releaseReset s

/-- A microsecond with `rst` asserted: the block stands, `now` included; only the environment's clock goes on (R148; log 6). -/
def holdReset (s : State) : State := s.setEnv { s.env with clock := s.env.clock + 1 }

end Sys2Proof.Machine
end

