-- ==== Sys2Proof/Machine/EdgeTimer.lean ====
section
/-! DEFINITION. The Edge Timer (R70 to R83): starting a wait, one microsecond of its poll loop, and the host command AWAIT. -/

namespace Sys2Proof.Machine

/-- Load the Edge Timer for `Await(B, L)`: nothing elapsed, and the loop runs if at least one sample fits the budget (R73, R83). -/
def armTimer (b : Dur) (l : Bool) (s : State) : State :=
  s.setEt ⟨0#16, b, l, decide (s.cfg.pollUs ≤ b.toNat), 0#3⟩

/-- Start `Await(B, L)`; a budget below `POLL_US` times out at once, with no sample (R83). -/
def startAwait (b : Dur) (l : Bool) (onTimeout : State → State) (s : State) : State :=
  let t := armTimer b l s
  if t.et.run then t else onTimeout t

/-- A microsecond that is no sample instant: `POLLCNT <- POLLCNT + 1` (R79). -/
def countPoll (s : State) : State := s.setEt { s.et with pollCnt := s.et.pollCnt + 1#3 }

/-- A sample instant: `POLLCNT` returns to 0 and `ET_ELAPSED` advances by `POLL_US` (R19, R79). -/
def reachSample (s : State) : State :=
  s.setEt { s.et with elapsed := s.et.elapsed + BitVec.ofNat 16 s.cfg.pollUs, pollCnt := 0#3 }

/-- The poll loop ends (R74: nothing is sampled after the call returns). -/
def stopTimer (s : State) : State := s.setEt { s.et with run := false }

/-- Whether the next sample still falls within the budget (R73, R74). -/
def sampleFits (s : State) : Bool := decide (s.et.elapsed.toNat + s.cfg.pollUs ≤ s.et.budget.toNat)

/-- One microsecond of a running poll loop, `now` already advanced (R73, R79): every `POLL_US` the line is sampled; the
call returns `Ok` at the first match, and `Timeout` when the next sample would fall after the budget. -/
def pollTick (onOk onTimeout : State → State) (s : State) : State :=
  if s.et.pollCnt.toNat + 1 < s.cfg.pollUs then countPoll s
  else
    let t := reachSample s
    if t.line == t.et.level then onOk (stopTimer t)
    else if sampleFits t then t
    else onTimeout (stopTimer t)

/-- The host's AWAIT returns `Ok`: `BUSY <- 0; DONE <- 1` (R82). -/
def awaitOk (s : State) : State := complete s

/-- The host's AWAIT returns `Timeout`: TimeoutError, `ERR_INFO` stays 0 (R82, R130). -/
def awaitTimeout (s : State) : State := complete (raiseErr .timeoutError 0#6 s)

/-- What AWAIT does at the instant it is accepted: `BUSY <- 1` and the poll loop starts (R82). `ATOMIC`, `SEQ` and `LINE`
are not written; the loop goes on in the tick. -/
def beginAwait (level : Bool) (budget : Nat) (s : State) : State :=
  startAwait (BitVec.ofNat 16 budget) level awaitTimeout (markBusy s)

/-- AWAIT (R82). The instruction takes effect over time: this is its acceptance and start; the tick carries the poll loop to its
end (log 2). -/
def execAwait (level : Bool) (budget : Nat) (s : State) : Host.Outcome State Fault Refusal :=
  .next (command (beginAwait level budget) s)

end Sys2Proof.Machine
end

