-- ==== Sys2Proof/Machine/FrameDecoder.lean ====
section
/-! DEFINITION. The Frame Decoder (R93 to R124): the actions of every row of the transition table R115, and the host command
ACQ. -/

namespace Sys2Proof.Machine

/-! What the Edge Timer's `Timeout` means in each stage (R98 to R101, R82). -/

/-- The stage's timeout: `fail(2, stage)` in the handshake, `fail(3, i)` in ReadBit, TimeoutError for the host's AWAIT. The
other stages start no wait (R96) and leave the state as it is. -/
def waitTimedOut (s : State) : State :=
  match s.seq.stage with
  | .idle => awaitTimeout s
  | .awaitSensorAck => fail .handshakeTimeout 2#6 s
  | .awaitSensorReady => fail .handshakeTimeout 3#6 s
  | .awaitDataStart => fail .handshakeTimeout 4#6 s
  | .readBit => fail .bitTimeout s.seq.bitIdx s
  | .startPulse => s
  | .checksum => s
  | .done => s

/-- A stage of the sequencer starts its Edge Timer call. -/
def startStage (q : Seq) (b : Dur) (l : Bool) (s : State) : State := startAwait b l waitTimedOut (s.setSeq q)

/-- AwaitSensorAck starts: wait for the line to fall (R98). -/
def startAck (s : State) : State := startStage ⟨.awaitSensorAck, false, 0#6⟩ s.regs.tAck false s

/-- AwaitSensorReady starts: wait for the line to rise (R99). -/
def startReady (s : State) : State := startStage ⟨.awaitSensorReady, false, 0#6⟩ s.regs.tReady true s

/-- AwaitDataStart starts: wait for the line to fall (R100). -/
def startData (s : State) : State := startStage ⟨.awaitDataStart, false, 0#6⟩ s.regs.tDstart false s

/-- The low phase of bit `i` starts: wait for the line to rise (R101 item 1). -/
def startLowPhase (i : BitVec 6) (s : State) : State := startStage ⟨.readBit, false, i⟩ s.regs.tBitLow true s

/-- The high phase of bit `i` starts: wait for the line to fall (R101 item 2). -/
def startHighPhase (i : BitVec 6) (s : State) : State := startStage ⟨.readBit, true, i⟩ s.regs.tBitHigh false s

/-! StartPulse (R97). -/

/-- `START_HIGH_US` elapsed: release the line and start stage 2. -/
def endStartHigh (s : State) : State := startAck (release s)

/-- `START_LOW_US` elapsed: drive high; with `START_HIGH_US = 0` the release follows at the same instant. -/
def endStartLow (s : State) : State :=
  let t := ((driveHigh s).setSeq ⟨.startPulse, true, 0#6⟩).setDly (BitVec.ofNat 16 s.cfg.startHighUs)
  if t.dly = 0#16 then endStartHigh t else t

/-- One microsecond of StartPulse: `DLY` counts down, and at 0 the half of the pulse ends (R21, R97). -/
def startPulseTick (s : State) : State :=
  let t := s.setDly (s.dly - 1#16)
  if t.dly = 0#16 then (if t.seq.sub then endStartHigh t else endStartLow t) else t

/-! Checksum and Done: both take no time (R105, R106). -/

/-- Delivery of the Reading: only what was requested (R120, R122). -/
def deliver (f : Frame) (d : Decoder) : Results :=
  { frame := f
    hum := if d.wantH then convert f.b0 else 0#16
    temp := if d.wantT then convert f.b2 else 0#16
    hvalid := d.wantH
    tvalid := d.wantT }

/-- Done: commit the frame, deliver the Reading, `finish()` (R106). -/
def commit (s : State) : State := finish (s.setRes (deliver (pack s.dec.bitBuf) s.dec))

/-- Checksum: a frame that fails the invariant ends with ChecksumMismatch, one that holds goes to Done (R105). -/
def checkFrame (s : State) : State :=
  if (pack s.dec.bitBuf).valid then commit (s.setSeq ⟨.done, false, 0#6⟩) else fail .checksumMismatch 0#6 s

/-- The last bit is decided: the window closes and Checksum is entered (R108, R115). -/
def endBits (s : State) : State := checkFrame ((endWindow s).setSeq ⟨.checksum, false, 0#6⟩)

/-! What the Edge Timer's `Ok` means in each stage (R115). -/

/-- The low phase of a bit is measured: `LOW_DUR <- d`, and its high phase starts (R101). -/
def lowPhaseDone (s : State) : State :=
  startHighPhase s.seq.bitIdx (s.setDec { s.dec with lowDur := s.et.elapsed })

/-- The high phase of a bit is measured: `HIGH_DUR <- d`, the bit is decided, and the next bit starts; after bit 39 the frame
is checked (R101, R102, R103). -/
def highPhaseDone (s : State) : State :=
  let t := s.setDec
    { s.dec with
      highDur := s.et.elapsed
      bitBuf := writeBit s.dec.bitBuf s.seq.bitIdx.toNat (decideBit s.dec.lowDur s.et.elapsed) }
  if s.seq.bitIdx.toNat < 39 then startLowPhase (s.seq.bitIdx + 1#6) t else endBits t

/-- The stage's `Ok` (R98 to R101, R82). The stages that start no wait leave the state as it is. -/
def waitMet (s : State) : State :=
  match s.seq.stage with
  | .idle => awaitOk s
  | .awaitSensorAck => startReady s
  | .awaitSensorReady => startData s
  | .awaitDataStart => startLowPhase 0#6 s
  | .readBit => if s.seq.sub then highPhaseDone s else lowPhaseDone s
  | .startPulse => s
  | .checksum => s
  | .done => s

/-! The command. -/

/-- What ACQ does at the instant it is accepted (R94, R95): latch the request; with nothing requested InvalidArgument and no
other effect; else `BUSY`, a clear bit buffer, the window, and the start pulse begins. The rest follows in the tick. -/
def beginAcq (wantH wantT : Bool) (s : State) : State :=
  let t := s.setDec { s.dec with wantH := wantH, wantT := wantT }
  if wantH || wantT then
    let u := beginWindow ((markBusy t).setDec { t.dec with bitBuf := 0#40 })
    ((driveLow u).setSeq ⟨.startPulse, false, 0#6⟩).setDly (BitVec.ofNat 16 s.cfg.startLowUs)
  else complete (raiseErr .invalidArgument 0#6 t)

/-- ACQ (R93, R94). The instruction takes effect over time: this is its acceptance and start; the tick carries the sequence to
its end (log 2). -/
def execAcq (wantH wantT : Bool) (s : State) : Host.Outcome State Fault Refusal :=
  .next (command (beginAcq wantH wantT) s)

end Sys2Proof.Machine
end

