-- ==== Sys2Proof/Machine/LineDriver.lean ====
section
/-! DEFINITION. The Line Driver's host commands DRVL, DRVH and REL (R84 to R92). -/

namespace Sys2Proof.Machine

/-- DRVL (R86, R89): the line driven low, done in the same instant. -/
def execDrvl (s : State) : Host.Outcome State Fault Refusal :=
  .next (command (fun t => complete (driveLow t)) s)

/-- DRVH (R87, R89): the line driven high, done in the same instant. -/
def execDrvh (s : State) : Host.Outcome State Fault Refusal :=
  .next (command (fun t => complete (driveHigh t)) s)

/-- REL (R88, R89): the line released, done in the same instant. -/
def execRel (s : State) : Host.Outcome State Fault Refusal :=
  .next (command (fun t => complete (release t)) s)

end Sys2Proof.Machine
end

