-- ==== Sys2Proof/Machine/Dispatch.lean ====
section
/-! DEFINITION. One arm per command. -/

namespace Sys2Proof.Machine

def exec (i : Instr) (s : State) : Host.Outcome State Fault Refusal :=
  match i with
  | .drvl => Sys2Proof.Machine.execDrvl s
  | .drvh => Sys2Proof.Machine.execDrvh s
  | .rel => Sys2Proof.Machine.execRel s
  | .await level budget => Sys2Proof.Machine.execAwait level budget s
  | .acq wantH wantT => Sys2Proof.Machine.execAcq wantH wantT s

end Sys2Proof.Machine
end

