-- ==== Sys2Proof/Machine/Sequencer.lean ====
section
/-! DEFINITION. One microsecond of the block: time passes and the running command, if any, goes on (R8, R20, R21, R115). -/

namespace Sys2Proof.Machine

/-- A microsecond of a running wait: the Edge Timer with the stage's meaning of `Ok` and `Timeout`. A busy block with no wait
running matches no row of R115. -/
def waitTick (s : State) : Host.Outcome State Fault Refusal :=
  if s.et.run then .next (pollTick waitMet waitTimedOut s) else .fault .noTransition

/-- What a busy block does at a tick instant, `now` already advanced. Checksum and Done do not stand at a tick boundary (R13);
should one, it is left at once (log 12). -/
def busyTick (s : State) : Host.Outcome State Fault Refusal :=
  match s.seq.stage with
  | .idle => waitTick s
  | .startPulse => if s.dly = 0#16 then .fault .noTransition else .next (startPulseTick s)
  | .awaitSensorAck => waitTick s
  | .awaitSensorReady => waitTick s
  | .awaitDataStart => waitTick s
  | .readBit => waitTick s
  | .checksum => .next (checkFrame s)
  | .done => .next (commit s)

/-- One microsecond: while `rst` is asserted the block stands (R148); else `now` advances, and a busy block acts (R8, R10). Between
commands nothing else happens. -/
def tick (s : State) : Host.Outcome State Fault Refusal :=
  if s.rst then .next (holdReset s)
  else
    let t := passTime 1 s
    if t.flags.busy then busyTick t else .next t

/-- `k` microseconds with no access of the host in between. -/
def runTicks : Nat → State → Host.Outcome State Fault Refusal
  | 0, s => .next s
  | k + 1, s =>
    match tick s with
    | .next t => runTicks k t
    | .fault f => .fault f
    | .refused r => .refused r

end Sys2Proof.Machine
end

