-- ==== Sys2Proof/Machine/HostPort.lean ====
section
/-! DEFINITION. The host's side: register accesses at an instant, WAIT, GAP, reset (R40 to R53, R67, R148). -/

namespace Sys2Proof.Machine

/-- A command word delivered to `CMD` (R30, R53): a command is executed, an illegal word is reported (R63), both if writes have an
effect. -/
def deliverWord (w : Word) (s : State) : Host.Outcome State Fault Refusal :=
  match decode w with
  | .command i => exec i s
  | .illegal _ => .next (writeGate illegalCommand s)

/-- `RegWrite` of a register of the map, if writes have an effect (R43, R148); a write of `CMD` starts a command (R42). -/
def hostWrite (r : HostReg) (v : Word) (s : State) : Host.Outcome State Fault Refusal :=
  match r with
  | .cmd => deliverWord v s
  | _ => .next (writeGate (writeReg r v) s)

/-- What the host has seen of the outcome after reading `r`: a read counts once the command has completed (R162; log 24). -/
def noteRead (r : HostReg) (s : State) : Seen :=
  if s.flags.done then
    { status := s.bus.seen.status || r == .status
      dur := s.bus.seen.dur || r == .dur
      hum := s.bus.seen.hum || r == .hum
      temp := s.bus.seen.temp || r == .temp }
  else s.bus.seen

/-- A write to `CMD` starts the record of what the host has seen afresh (log 24). -/
def noteWrite (r : HostReg) (s : State) : State :=
  match r with
  | .cmd => s.setBus { s.bus with seen := Seen.nothing }
  | _ => s

/-- `RegRead` of a register of the map: the value is put on the bus, nothing of the block changes (R42, R44). -/
def hostRead (r : HostReg) (s : State) : State := s.setBus { s.bus with rdata := readReg r s, seen := noteRead r s }

/-- The host action at the head of the script is over. -/
def popAction (rest : List HostAction) (s : State) : State := s.setBus { s.bus with script := rest }

/-- One action of the host or the platform. A write, a read and a level on `rst` take no time; WAIT reads `STATUS` and lets a
microsecond pass while `BUSY = 1`; GAP lets its microseconds pass. An access that R40 does not define is refused. -/
def hostStep (a : HostAction) (rest : List HostAction) (s : State) : Host.Outcome State Fault Refusal :=
  match a with
  | .write size off v =>
    match HostReg.accessed size off with
    | some r => hostWrite r v (noteWrite r (popAction rest s))
    | none => .refused .undefinedAccess
  | .read size off =>
    match HostReg.accessed size off with
    | some r => .next (hostRead r (popAction rest s))
    | none => .refused .undefinedAccess
  | .wait => if s.flags.busy then tick (hostRead .status s) else .next (hostRead .status (popAction rest s))
  | .gap n =>
    match n with
    | 0 => .next (popAction rest s)
    | m + 1 => tick (popAction (.gap m :: rest) s)
  | .rst asserted => .next (driveRst asserted (popAction rest s))

/-- The next thing that happens: the host's next action, or, with none to come, a microsecond. -/
def nextEvent (s : State) : Host.Outcome State Fault Refusal :=
  match s.bus.script with
  | [] => tick s
  | a :: rest => hostStep a rest s

/-- The host is about to write this command word to `CMD`, and the block will accept it (log 3). -/
def placeCommand (w : Word) (s : State) : State :=
  ((s.setRst false).setFlags { s.flags with busy := false }).setBus { s.bus with script := .write .word 0 w :: s.bus.script }

end Sys2Proof.Machine
end

