-- ==== Sys2Proof/Machine/HostProgram.lean ====
section
/-! DEFINITION. The assembler notation of host programs and its pseudo-instructions, as lists of host actions (R67, R68, R69). -/

namespace Sys2Proof.Machine

/-- A command mnemonic stands for `WR CMD, <word>` (R67). -/
def asmCommand (i : Instr) : HostAction := .write .word HostReg.cmd.offset (encode i)

/-- `WR <reg>, <value>` (R67). -/
def asmWr (r : HostReg) (v : Word) : HostAction := .write .word r.offset v

/-- `RD <reg>` (R67). -/
def asmRd (r : HostReg) : HostAction := .read .word r.offset

/-- `WAITLOW <budget>` (R68). -/
def asmWaitLow (budget : Nat) : List HostAction := [asmCommand (.await false budget)]

/-- `WAITHIGH <budget>` (R68). -/
def asmWaitHigh (budget : Nat) : List HostAction := [asmCommand (.await true budget)]

/-- `ACQ.H` (R68). -/
def asmAcqH : List HostAction := [asmCommand (.acq true false)]

/-- `ACQ.T` (R68). -/
def asmAcqT : List HostAction := [asmCommand (.acq false true)]

/-- `ACQ.HT` (R68). -/
def asmAcqHT : List HostAction := [asmCommand (.acq true true)]

/-- `READ <want>`: the blocking acquisition call as a host sequence (R68). -/
def asmRead (wantH wantT : Bool) : List HostAction :=
  [asmCommand (.acq wantH wantT), .wait, asmRd .status, asmRd .hum, asmRd .temp]

end Sys2Proof.Machine
end

