-- ==== Sys2Proof/Machine/Step.lean ====
section
/-! DEFINITION. One step of the machine, and how a command is placed to run next. -/

namespace Sys2Proof.Machine

/-- One step: the host's next action, or a microsecond (R10). -/
def step (s : State) : Host.Outcome State Fault Refusal := nextEvent s

/-- `s` with the command word `w` (its bits above `nbits` zero) as the host's next write to `CMD`, and the block ready to accept
it (neither busy nor in reset): the block fetches nothing (R50), so this is what placing an instruction means (log 3). -/
def State.withFetchWord (s : State) (nbits w : Nat) : State := placeCommand (BitVec.ofNat 32 (w % 2 ^ nbits)) s

end Sys2Proof.Machine
end

