-- ==== Sys2Proof/Machine/ClosedForm.lean ====
section
/-! DEFINITION. The commands as R73 and R94 write them, one closed computation each, with `Await` as a loop over samples. The
machine runs tick by tick; these are what its runs are held against (log 2). -/

namespace Sys2Proof.Machine

/-- Up to `n` samples, one every `POLL_US`, until the line is at `l` (R73): whether it was seen, and the state then. -/
def awaitLoop (l : Bool) : Nat → State → Bool × State
  | 0, s => (false, s)
  | n + 1, s =>
    let t := reachSample (passTime s.cfg.pollUs s)
    if t.line == l then (true, t) else awaitLoop l n t

/-- `Await(B, L)` (R73): `true` for `Ok`, whose duration is then `ET_ELAPSED`, and `false` for `Timeout`. -/
def awaitClosed (b : Dur) (l : Bool) (s : State) : Bool × State :=
  let r := awaitLoop l (b.toNat / s.cfg.pollUs) (armTimer b l s)
  (r.1, stopTimer r.2)

/-- The host command AWAIT after acceptance (R82). -/
def awaitCommand (level : Bool) (budget : Nat) (s : State) : State :=
  let r := awaitClosed (BitVec.ofNat 16 budget) level (markBusy s)
  if r.1 then complete r.2 else complete (raiseErr .timeoutError 0#6 r.2)

/-- `STATE <- stage; Await; fail on Timeout`, then the rest of ACQ (R94). -/
def stageThen (q : Seq) (b : Dur) (l : Bool) (code : ErrCode) (info : BitVec 6) (andThen : State → State)
    (s : State) : State :=
  let r := awaitClosed b l (s.setSeq q)
  if r.1 then andThen r.2 else fail code info r.2

/-- The end of ACQ after its last bit (R94). -/
def afterBits (s : State) : State :=
  let t := (endWindow s).setSeq ⟨.checksum, false, 0#6⟩
  if (pack t.dec.bitBuf).valid then
    finish ((t.setSeq ⟨.done, false, 0#6⟩).setRes (deliver (pack t.dec.bitBuf) t.dec))
  else fail .checksumMismatch 0#6 t

/-- The high phase of bit `i` is measured: keep its duration and decide the bit (R94). -/
def recordBit (i : Nat) (s : State) : State :=
  s.setDec
    { s.dec with
      highDur := s.et.elapsed
      bitBuf := writeBit s.dec.bitBuf i (decideBit s.dec.lowDur s.et.elapsed) }

/-- The low phase of bit `i` is measured: keep its duration, then measure the high phase (R94). -/
def highPhase (i : Nat) (andThen : State → State) (s : State) : State :=
  stageThen ⟨.readBit, true, BitVec.ofNat 6 i⟩ s.regs.tBitHigh false .bitTimeout (BitVec.ofNat 6 i)
    (fun u => andThen (recordBit i u)) (s.setDec { s.dec with lowDur := s.et.elapsed })

/-- The last `n` repetitions of ReadBit, `i = 40 - n, ..., 39`, then the end of ACQ (R94, R101). -/
def readBits : Nat → State → State
  | 0, s => afterBits s
  | n + 1, s =>
    stageThen ⟨.readBit, false, BitVec.ofNat 6 (nBits - (n + 1))⟩ s.regs.tBitLow true .bitTimeout
      (BitVec.ofNat 6 (nBits - (n + 1))) (highPhase (nBits - (n + 1)) (readBits n)) s

/-- ACQ from AwaitDataStart on (R94, R100). -/
def fromDataStart (s : State) : State :=
  stageThen ⟨.awaitDataStart, false, 0#6⟩ s.regs.tDstart false .handshakeTimeout 4#6 (readBits nBits) s

/-- ACQ from AwaitSensorReady on (R94, R99). -/
def fromSensorReady (s : State) : State :=
  stageThen ⟨.awaitSensorReady, false, 0#6⟩ s.regs.tReady true .handshakeTimeout 3#6 fromDataStart s

/-- ACQ from AwaitSensorAck on (R94, R98). -/
def fromSensorAck (s : State) : State :=
  stageThen ⟨.awaitSensorAck, false, 0#6⟩ s.regs.tAck false .handshakeTimeout 2#6 fromSensorReady s

/-- StartPulse (R94, R97): drive low, drive high, release. -/
def startPulse (s : State) : State :=
  let low := passTime s.cfg.startLowUs ((driveLow s).setSeq ⟨.startPulse, false, 0#6⟩)
  let high := passTime s.cfg.startHighUs ((driveHigh low).setSeq ⟨.startPulse, true, 0#6⟩)
  (release high).setSeq ⟨.startPulse, false, 0#6⟩

/-- The whole of ACQ after acceptance, as R94 writes it. -/
def acqCommand (wantH wantT : Bool) (s : State) : State :=
  let t := s.setDec { s.dec with wantH := wantH, wantT := wantT }
  if wantH = false ∧ wantT = false then complete (raiseErr .invalidArgument 0#6 t)
  else fromSensorAck (startPulse (beginWindow ((markBusy t).setDec { t.dec with bitBuf := 0#40 })))

/-- What a command has done when it has completed, with no access of the host in between. -/
def commandClosed (i : Instr) (s : State) : State :=
  match i with
  | .drvl => complete (driveLow (accept s))
  | .drvh => complete (driveHigh (accept s))
  | .rel => complete (release (accept s))
  | .await level budget => awaitCommand level budget (accept s)
  | .acq wantH wantT => acqCommand wantH wantT (accept s)

end Sys2Proof.Machine
end

