-- ==== Sys2Proof/Machine/Stimulus.lean ====
section
/-! DEFINITION. Named premises about the line and about where a poll loop stands, for statements (R9: what a claim assumes of the
sensor is a premise, never part of the machine). -/

namespace Sys2Proof.Machine

/-- The level `pin_in` will have at the next microsecond. -/
def State.nextLine (s : State) : Bool := s.env.lineAt (s.env.clock + 1)

/-- The next microsecond is a sample instant of a running wait (R79). -/
abbrev State.SampleNext (s : State) : Prop :=
  s.flags.busy = true ∧ s.et.run = true ∧ s.et.pollCnt.toNat + 1 = s.cfg.pollUs

/-- The sample after the next one falls after the budget (R73). -/
abbrev State.LastSample (s : State) : Prop := s.et.budget.toNat < s.et.elapsed.toNat + 2 * s.cfg.pollUs

/-- `ET_ELAPSED` at the next sample instant (R19). -/
def State.nextElapsed (s : State) : Dur := s.et.elapsed + BitVec.ofNat 16 s.cfg.pollUs

/-- A wait for `level` started at `t0`, sampling every `p`, first sees it at its `m`-th sample, by the given stimulus alone. -/
abbrev SeenAt (stim : List (Nat × Bool)) (p t0 : Nat) (level : Bool) (m : Nat) : Prop :=
  1 ≤ m ∧ (∀ j, 1 ≤ j → j < m → stimLevel stim (t0 + j * p) = some (!level)) ∧
    stimLevel stim (t0 + m * p) = some level

/-- The line is the same to both states, counted from their own instants: either everything the level depends on is the same, or the
given stimuli are (R114). -/
abbrev SameLine (s₁ s₂ : State) : Prop :=
  (s₁.env.clock = s₂.env.clock ∧ s₁.env.stim = s₂.env.stim ∧ s₁.env.drives = s₂.env.drives) ∨
  ∀ x, 1 ≤ x →
    ∃ l, stimLevel s₁.env.stim (s₁.env.clock + x) = some l ∧ stimLevel s₂.env.stim (s₂.env.clock + x) = some l

/-- What a sensor sends, in samples: the three handshake waits, and the two phases of each data bit. -/
structure Transmission where
  ack : Nat
  ready : Nat
  data : Nat
  low : Nat → Nat
  high : Nat → Nat

/-- The instant bit `i` starts, the first starting at `b0` (R116). -/
def Transmission.bitStart (x : Transmission) (p b0 : Nat) : Nat → Nat
  | 0 => b0
  | i + 1 => x.bitStart p b0 i + (x.low i + x.high i) * p

/-- The instant the line is released by an acquisition accepted now (R97). -/
def State.releaseInstant (s : State) : Nat := s.env.clock + s.cfg.startLowUs + s.cfg.startHighUs

/-- The instant bit 0 of a transmission starts (R116). -/
def Transmission.firstBit (x : Transmission) (s : State) : Nat :=
  s.releaseInstant + (x.ack + x.ready + x.data) * s.cfg.pollUs

/-- The stimulus of `s` carries the transmission to an acquisition accepted now, every wait within its budget. -/
structure Transmission.CarriedBy (x : Transmission) (s : State) : Prop where
  ack : SeenAt s.env.stim s.cfg.pollUs s.releaseInstant false x.ack
  ackFits : x.ack * s.cfg.pollUs ≤ s.regs.tAck.toNat
  ready : SeenAt s.env.stim s.cfg.pollUs (s.releaseInstant + x.ack * s.cfg.pollUs) true x.ready
  readyFits : x.ready * s.cfg.pollUs ≤ s.regs.tReady.toNat
  data : SeenAt s.env.stim s.cfg.pollUs (s.releaseInstant + (x.ack + x.ready) * s.cfg.pollUs) false x.data
  dataFits : x.data * s.cfg.pollUs ≤ s.regs.tDstart.toNat
  low : ∀ i, i < 40 →
    SeenAt s.env.stim s.cfg.pollUs (x.bitStart s.cfg.pollUs (x.firstBit s) i) true (x.low i)
  lowFits : ∀ i, i < 40 → x.low i * s.cfg.pollUs ≤ s.regs.tBitLow.toNat
  high : ∀ i, i < 40 →
    SeenAt s.env.stim s.cfg.pollUs
      (x.bitStart s.cfg.pollUs (x.firstBit s) i + x.low i * s.cfg.pollUs) false (x.high i)
  highFits : ∀ i, i < 40 → x.high i * s.cfg.pollUs ≤ s.regs.tBitHigh.toNat

/-- The bit buffer a transmission leaves: bit `i` is 1 exactly when its high phase measured longer (R102). -/
abbrev Transmission.Leaves (x : Transmission) (buf : BitVec 40) : Prop :=
  ∀ i, i < 40 → buf.getLsbD i = decide (x.low i < x.high i)

/-- A budget rounded down to whole polling intervals, `q(B)` of R109. -/
def wholePolls (s : State) (b : Nat) : Nat := b / s.cfg.pollUs * s.cfg.pollUs

/-- The greatest duration of a command accepted in state `s` (the table of R160). -/
def longestRun (i : Instr) (s : State) : Nat :=
  match i with
  | .drvl => 0
  | .drvh => 0
  | .rel => 0
  | .await _ budget => wholePolls s budget
  | .acq wantH wantT =>
    if wantH || wantT then
      s.cfg.startLowUs + s.cfg.startHighUs + wholePolls s s.regs.tAck.toNat + wholePolls s s.regs.tReady.toNat +
        wholePolls s s.regs.tDstart.toNat +
        40 * (wholePolls s s.regs.tBitLow.toNat + wholePolls s s.regs.tBitHigh.toNat)
    else 0

end Sys2Proof.Machine
end

