-- ==== Sys2Proof/Safety.lean ====
section
/-! DEFINITION. The invariants of R36, the shape of reachable states they rest on, and the host's duties (R152 to R154, R162). -/

namespace Sys2Proof.Machine

/-- The stages between the release of the line and the last bit. -/
abbrev Stage.Waits (g : Stage) : Prop :=
  g = .awaitSensorAck ∨ g = .awaitSensorReady ∨ g = .awaitDataStart ∨ g = .readBit

/-- The nine invariants of R36, in its order. -/
structure SpecInvariant (s : State) : Prop where
  /-- Item 1. -/
  window : s.flags.atomic = true → s.flags.busy = true ∧ (s.seq.stage = .startPulse ∨ s.seq.stage.Waits)
  /-- Item 2. -/
  stageBusy : s.seq.stage ≠ .idle → s.flags.busy = true
  /-- Item 3. -/
  busyNotDone : s.flags.busy = true → s.flags.done = false
  /-- Item 4. -/
  waitsReleased : s.seq.stage.Waits → s.pad = Pad.Z
  /-- Item 5. -/
  pulseDriven : s.seq.stage = .startPulse → s.pad = if s.seq.sub then Pad.H else Pad.L
  /-- Item 6. -/
  readingSound : s.res.hvalid = true ∨ s.res.tvalid = true →
    s.err.code = .none ∧ s.flags.done = true ∧ s.res.frame.valid = true
  /-- Item 7. -/
  errorNoResult : s.err.code ≠ .none → s.res = Results.clear
  /-- Item 8. -/
  padThreeValued : s.pad.oe = false → s.pad.out = false
  /-- Item 9. -/
  elapsedMultiple : s.cfg.pollUs ∣ s.et.elapsed.toNat

/-- The budget and expected level of the wait a stage runs (the table of R32). -/
def stageWait (q : Seq) (r : Regs) : Option (Dur × Bool) :=
  match q.stage with
  | .awaitSensorAck => some (r.tAck, false)
  | .awaitSensorReady => some (r.tReady, true)
  | .awaitDataStart => some (r.tDstart, false)
  | .readBit => if q.sub then some (r.tBitHigh, false) else some (r.tBitLow, true)
  | .idle => none
  | .startPulse => none
  | .checksum => none
  | .done => none

/-- The range of `ERR_INFO` under each code (R28, R125). -/
abbrev ErrReg.InRange (e : ErrReg) : Prop :=
  match e.code with
  | .handshakeTimeout => e.info = 2#6 ∨ e.info = 3#6 ∨ e.info = 4#6
  | .bitTimeout => e.info.toNat < 40
  | .none => e.info = 0#6
  | .invalidArgument => e.info = 0#6
  | .checksumMismatch => e.info = 0#6
  | .timeoutError => e.info = 0#6
  | .illegalCommand => e.info = 0#6

/-- The further facts of reachable states: what each register holds in each stage (R13 to R25, R27, R28, R31, R32, R44). -/
structure ShapeInvariant (s : State) : Prop where
  /-- The parameters are legal (R7). -/
  legal : s.cfg.Legal
  /-- Checksum and Done never stand at a tick boundary (R13). -/
  noInstantStage : s.seq.stage ≠ .checksum ∧ s.seq.stage ≠ .done
  /-- The window is open through every stage (R107, R108). -/
  stageWindow : s.seq.stage ≠ .idle → s.flags.atomic = true
  /-- `SUB` is 1 only in StartPulse and ReadBit (R14). -/
  subPlace : s.seq.sub = true → s.seq.stage = .startPulse ∨ s.seq.stage = .readBit
  /-- `BITIDX` is 0 outside ReadBit and below 40 (R15). -/
  bitIdxPlace : s.seq.stage ≠ .readBit → s.seq.bitIdx = 0#6
  bitIdxRange : s.seq.bitIdx.toNat < 40
  /-- A wait runs exactly when a command other than the start pulse is in progress. -/
  timerRuns : s.et.run = true ↔ s.flags.busy = true ∧ s.seq.stage ≠ .startPulse
  /-- The delay counter runs exactly in StartPulse (R21). -/
  delayRuns : s.dly ≠ 0#16 ↔ s.seq.stage = .startPulse
  /-- Within a running wait the next sample is still inside the budget (R73). -/
  pollInside : s.et.run = true →
    s.et.pollCnt.toNat < s.cfg.pollUs ∧ s.et.elapsed.toNat + s.cfg.pollUs ≤ s.et.budget.toNat
  /-- Outside a wait `POLLCNT` is 0. -/
  pollIdle : s.et.run = false → s.et.pollCnt = 0#3
  /-- A stage waits for its own level with its own budget (R32). -/
  stageOperands : stageWait s.seq s.regs = none ∨ stageWait s.seq s.regs = some (s.et.budget, s.et.level)
  /-- While busy there is no result and no error (R44). -/
  busyClear : s.flags.busy = true → s.res = Results.clear ∧ s.err = ErrReg.clear
  /-- An error stands only after a completed command (R28). -/
  errDone : s.err.code ≠ .none → s.flags.done = true
  /-- `FRAME` is all zeros or satisfies the checksum invariant (R24). -/
  frameSound : s.res.frame = Frame.zero ∨ s.res.frame.valid = true
  /-- A reading is its byte in tenths, or 0 when not delivered (R25, R122). -/
  humValue : s.res.hum = if s.res.hvalid then convert s.res.frame.b0 else 0#16
  tempValue : s.res.temp = if s.res.tvalid then convert s.res.frame.b2 else 0#16
  /-- `ERR_INFO` is in the range of its code (R125). -/
  errRange : s.err.InRange
  /-- The unimplemented bits of `PIN` are 0 (R31). -/
  pinWidth : s.regs.pin.toNat < 2 ^ s.cfg.pinW
  /-- While `rst` is asserted every element of the block holds its reset value (R148). -/
  resetHeld : s.rst = true →
    s = { State.initial s.cfg with rst := true, bus := s.bus, env := s.env }
  /-- An acquisition past its argument check wants something (R95). -/
  wantsSomething : s.seq.stage ≠ .idle → s.dec.wantH = true ∨ s.dec.wantT = true

/-- The invariant of the machine: R36 and the shape it rests on. -/
structure Inv (s : State) : Prop where
  spec : SpecInvariant s
  shape : ShapeInvariant s

/-! The host's duties. -/

/-- The word starts an acquisition that will send a start pulse. The gap of R152 is owed before such a word only: ACQ NONE sends
none. DESIGN CHOICE: R152 says 'before issuing a new StartPulse' and also 'to the next ACQ's acceptance' (log 14). -/
def startsPulse (w : Word) : Bool :=
  match decode w with
  | .command (.acq wantH wantT) => wantH || wantT
  | _ => false

/-- The last command left something to collect: an error, a reading, or a measured wait (R162). DRVL, DRVH, REL leave nothing.
DESIGN CHOICE: the spec does not say what collecting takes (log 24). -/
def State.hasOutcome (s : State) : Bool :=
  decide (s.err.code ≠ .none) || s.res.hvalid || s.res.tvalid || decide (s.et.elapsed ≠ 0#16)

/-- The host has collected the outcome of the last command: `STATUS`, each reading that is valid, and `DUR` where the duration of a
wait is the result (R69, R162; log 24). -/
def State.collected (s : State) : Bool :=
  !s.flags.done ||
  ((!s.hasOutcome || s.bus.seen.status) && (!s.res.hvalid || s.bus.seen.hum) && (!s.res.tvalid || s.bus.seen.temp) &&
    (decide (s.err.code ≠ .none) || s.res.hvalid || s.res.tvalid || decide (s.et.elapsed = 0#16) || s.bus.seen.dur))

/-- What a host that keeps its duties may do next (R162): accesses that exist; no write and no reset while busy (R153, R154);
before a command, the outcome of the last one collected, and before a start pulse the sensor's gap (R152, log 14); a reading only
after `STATUS` and when its valid flag is 1 (R122). -/
def hostDuty (s : State) (a : HostAction) : Bool :=
  match a with
  | .write size off v =>
    match HostReg.accessed size off with
    | some r =>
      !s.flags.busy &&
        (r != .cmd || (s.collected && !(startsPulse v && decide (s.env.clock < s.env.lastEnd + s.cfg.minGapUs))))
    | none => false
  | .read size off =>
    match HostReg.accessed size off with
    | some .hum => s.bus.seen.status && s.res.hvalid
    | some .temp => s.bus.seen.status && s.res.tvalid
    | some _ => true
    | none => false
  | .wait => true
  | .gap _ => true
  | .rst asserted => !(asserted && s.flags.busy)

/-- The host's next action, if there is one, is within its duties. -/
def nextActionDutiful (s : State) : Bool :=
  match s.bus.script with
  | [] => true
  | a :: _ => hostDuty s a

/-! The direction of the pad, for hosts that issue no DRVL, DRVH or REL. -/

/-- Whether an acquisition has passed its argument check since reset, after the next step, given whether one had before it. -/
def acquiredAfterStep (s : State) (acquired : Bool) : Bool :=
  match s.bus.script with
  | .rst true :: _ => false
  | .write .word 0 w :: _ => acquired || (startsPulse w && !s.flags.busy && !s.rst)
  | _ => acquired

/-- The pad is driven exactly in StartPulse, and in Idle once an acquisition has passed its argument check since reset (R90); no
stage stands where none has. -/
abbrev DirectionKept (s : State) (acquired : Bool) : Prop :=
  (s.pad.oe = true ↔ s.seq.stage = .startPulse ∨ (s.seq.stage = .idle ∧ acquired = true)) ∧
  (s.seq.stage ≠ .idle → acquired = true)

/-- A run is within the host's duties as long as no overrun is marked (R132). -/
abbrev State.Safe (s : State) : Prop := s.flags.ovr = false

end Sys2Proof.Machine
end

