-- ==== Sys2Proof/Certificates/Slice0/Obligations.lean ====
section
/-! DEFINITION. The statements for the provers. Each docstring names the rule it formalises. Where a statement gives a whole next
state, the fields `bus` and `env` in it are the model's own (logs 3, 4, 5, 14 and 24), not the spec's. -/

open Sys2Proof Sys2Proof.Machine

/-! ### Encoding -/

/-- Decoding the word of a well-formed instruction gives it back, with every operand at every value its field holds (R54 to R60). -/
def Obligations.DecodeEncodeRoundTrip : Prop :=
  ∀ i : Instr, i.WellFormed → decode (encode i) = .command i

/-- A word that decodes to an instruction is the one word of that instruction, and the instruction is well formed: each command
has one word per choice of operands (R54 to R60, R65). -/
def Obligations.EncodeDecodeRoundTrip : Prop :=
  ∀ (w : Word) (i : Instr), decode w = .command i → i.WellFormed ∧ encode i = w

/-- The decoder accepts exactly the words that select a row of the opcode map, gives the command the row names, and no word selects
two rows; the map is the table of R60 (R60). -/
def Obligations.DecoderFollowsOpcodeMap : Prop :=
  opcodeMap =
    [⟨"DRVL", 0x10000000#32, 0xFFFFFFFF#32⟩, ⟨"DRVH", 0x20000000#32, 0xFFFFFFFF#32⟩, ⟨"REL", 0x30000000#32, 0xFFFFFFFF#32⟩,
      ⟨"AWAIT", 0x40000000#32, 0xFFFE0000#32⟩, ⟨"ACQ", 0x50000000#32, 0xFFFFFFFC#32⟩] ∧
  (∀ w : Word, (∃ i, decode w = .command i) ↔ ∃ r ∈ opcodeMap, r.Selects w) ∧
  (∀ (w : Word) (i : Instr), decode w = .command i → ∀ r ∈ opcodeMap, r.Selects w → r.mnemonic = i.mnemonic) ∧
  (∀ w : Word, ∀ r₁ ∈ opcodeMap, ∀ r₂ ∈ opcodeMap, r₁.Selects w → r₂.Selects w → r₁ = r₂)

/-- Which words are illegal and why: by OP alone (R61), or by a reserved bit of the format (R62); they are the words that match no
row. -/
def Obligations.IllegalWordsByReason : Prop :=
  ∀ w : Word,
    (decode w = .illegal .opcode ↔ w.toNat / 2 ^ 28 = 0 ∨ 6 ≤ w.toNat / 2 ^ 28) ∧
    (decode w = .illegal .reservedBits ↔
      (1 ≤ w.toNat / 2 ^ 28 ∧ w.toNat / 2 ^ 28 ≤ 3 ∧ w.toNat % 2 ^ 28 ≠ 0) ∨
      (w.toNat / 2 ^ 28 = 4 ∧ w.toNat % 2 ^ 28 / 2 ^ 17 ≠ 0) ∨
      (w.toNat / 2 ^ 28 = 5 ∧ w.toNat % 2 ^ 28 / 2 ^ 2 ≠ 0)) ∧
    ((∃ r, decode w = .illegal r) ↔ ∀ r ∈ opcodeMap, ¬ r.Selects w)

/-- Words written out in the spec (95_test_vectors.md section 2.1) decode as the spec says. -/
def Obligations.DecodeSpecWords : Prop :=
  decode 0x10000000#32 = .command .drvl ∧
  decode 0x20000000#32 = .command .drvh ∧
  decode 0x30000000#32 = .command .rel ∧
  decode 0x40000028#32 = .command (.await false 40) ∧
  decode 0x4001FFFF#32 = .command (.await true 65535) ∧
  decode 0x50000001#32 = .command (.acq true false) ∧
  decode 0x50000002#32 = .command (.acq false true) ∧
  decode 0x4FFFFFFF#32 = .illegal .reservedBits ∧
  decode 0xF0000000#32 = .illegal .opcode

/-- The pseudo-instructions expand to the words and accesses of R68. -/
def Obligations.PseudoInstructionExpansions : Prop :=
  (∀ budget, asmWaitLow budget = [asmCommand (.await false budget)]) ∧
  (∀ budget, asmWaitHigh budget = [asmCommand (.await true budget)]) ∧
  asmAcqH = [.write .word 0x00 0x50000001#32] ∧
  asmAcqT = [.write .word 0x00 0x50000002#32] ∧
  asmAcqHT = [.write .word 0x00 0x50000003#32] ∧
  (∀ wantH wantT, asmRead wantH wantT =
    [asmCommand (.acq wantH wantT), .wait, .read .word 0x04, .read .word 0x2C, .read .word 0x30])

/-! ### The register interface -/

/-- A command word the host writes to `CMD` runs as the instruction it decodes to, the write itself consumed; and the word placed by
`withFetchWord` runs in the very next step. -/
def Obligations.StepRunsDecodedCommand : Prop :=
  ∀ (s : State) (w : Word) (i : Instr), decode w = .command i →
    (∀ rest, s.bus.script = .write .word 0x00 w :: rest →
      step s = exec i { s with bus := { s.bus with script := rest, seen := Seen.nothing } }) ∧
    step (s.withFetchWord 32 w.toNat) =
      exec i
        { s with
          rst := false
          flags := { s.flags with busy := false }
          bus := { s.bus with seen := Seen.nothing } }

/-- An illegal word written with `BUSY = 0` clears the results, reports error 6 and does nothing else, in no time (R63). -/
def Obligations.IllegalWordReported : Prop :=
  ErrCode.illegalCommand.code = 6#3 ∧
  ∀ (s : State) (w : Word) (r : Reject) (rest : List HostAction),
    decode w = .illegal r → s.rst = false → s.flags.busy = false → s.bus.script = .write .word 0x00 w :: rest →
    step s = .next
      { s with
        bus := { s.bus with script := rest, seen := Seen.nothing }
        res := Results.clear
        et := { s.et with elapsed := 0#16 }
        err := ⟨.illegalCommand, 0#6⟩
        flags := { s.flags with done := true } }

/-- A register write while `BUSY = 1` is dropped and sets `OVR`, which then stays 1 until reset (R43). -/
def Obligations.WriteWhileBusyOverruns : Prop :=
  (∀ (s : State) (off : Nat) (v : Word) (rest : List HostAction),
    s.rst = false → s.flags.busy = true → MappedOffset off → s.bus.script = .write .word off v :: rest →
    ∃ t : State, step s = .next t ∧
      t = { s with bus := { s.bus with script := rest, seen := t.bus.seen }, flags := { s.flags with ovr := true } }) ∧
  (∀ s t : State, s.flags.ovr = true → (∀ rest, s.bus.script ≠ .rst true :: rest) →
    step s = .next t → t.flags.ovr = true)

/-- An access is refused exactly when it is not a 32-bit access at a 4-byte-aligned offset inside the map (R40). -/
def Obligations.UndefinedAccessRefused : Prop :=
  (∀ (s : State) (size : Size) (off : Nat) (v : Word) (rest : List HostAction),
    s.bus.script = .write size off v :: rest →
    (step s = .refused .undefinedAccess ↔ ¬ (size = .word ∧ off % 4 = 0 ∧ off ≤ 0x30))) ∧
  (∀ (s : State) (size : Size) (off : Nat) (rest : List HostAction),
    s.bus.script = .read size off :: rest →
    (step s = .refused .undefinedAccess ↔ ¬ (size = .word ∧ off % 4 = 0 ∧ off ≤ 0x30)))

/-- Reads have no side effect, writes to read-only registers change nothing, and a write to a writable register changes that register
alone, to its implemented bits (R42; R31 and R32 for the bits; the record of reads is the model's own, log 24). -/
def Obligations.AccessesTouchOnlyTheirRegister : Prop :=
  (∀ (s : State) (r : HostReg) (rest : List HostAction),
    s.bus.script = .read .word r.offset :: rest →
    step s = .next { s with bus := ⟨rest, readReg r s, noteRead r s⟩ }) ∧
  (∀ (s : State) (r : HostReg) (v : Word) (rest : List HostAction),
    r ∈ [HostReg.status, .dur, .frameLo, .frameHi, .hum, .temp] → s.flags.busy = false →
    s.bus.script = .write .word r.offset v :: rest →
    step s = .next { s with bus := { s.bus with script := rest } }) ∧
  (∀ (s : State) (r : HostReg) (v : Word) (rest : List HostAction),
    r ∈ [HostReg.pin, .tAck, .tReady, .tDstart, .tBitLow, .tBitHigh] → s.rst = false → s.flags.busy = false →
    s.bus.script = .write .word r.offset v :: rest →
    ∃ t : State, step s = .next t ∧
      t = { s with bus := { s.bus with script := rest }, regs := t.regs } ∧
      (readReg r t).toNat = (if r = .pin then v.toNat % 2 ^ s.cfg.pinW else v.toNat % 2 ^ 16) ∧
      ∀ r', r' ≠ r → readReg r' t = readReg r' s)

/-- Every field of `STATUS` stands where R29 puts it, with the stage numbers of R13 and the error codes of R125, of which 7 is never
shown; the reserved bits read 0, a write to `STATUS` is ignored, and after reset it reads 0 (R29). -/
def Obligations.StatusFields : Prop :=
  readReg .status State.reset = 0x00000000#32 ∧
  [Stage.idle, .startPulse, .awaitSensorAck, .awaitSensorReady, .awaitDataStart, .readBit, .checksum, .done].map Stage.code =
    [0#3, 1#3, 2#3, 3#3, 4#3, 5#3, 6#3, 7#3] ∧
  [ErrCode.none, .invalidArgument, .handshakeTimeout, .bitTimeout, .checksumMismatch, .timeoutError,
      .illegalCommand].map ErrCode.code =
    [0#3, 1#3, 2#3, 3#3, 4#3, 5#3, 6#3] ∧
  (∀ (s : State) (v : Word) (rest : List HostAction), s.flags.busy = false →
    s.bus.script = .write .word 0x04 v :: rest →
    step s = .next { s with bus := { s.bus with script := rest } }) ∧
  ∀ s : State,
    (readReg .status s).getLsbD 0 = s.flags.busy ∧
    (readReg .status s).getLsbD 1 = s.flags.done ∧
    (readReg .status s).getLsbD 2 = s.flags.atomic ∧
    (readReg .status s).getLsbD 3 = s.flags.ovr ∧
    (readReg .status s).getLsbD 4 = s.res.hvalid ∧
    (readReg .status s).getLsbD 5 = s.res.tvalid ∧
    (readReg .status s).extractLsb' 6 2 = 0#2 ∧
    (readReg .status s).extractLsb' 8 3 = s.seq.stage.code ∧
    (readReg .status s).getLsbD 11 = s.seq.sub ∧
    (readReg .status s).extractLsb' 12 6 = s.seq.bitIdx ∧
    (readReg .status s).getLsbD 18 = s.pad.out ∧
    (readReg .status s).getLsbD 19 = s.pad.oe ∧
    (readReg .status s).extractLsb' 20 3 = s.err.code.code ∧
    (readReg .status s).getLsbD 23 = false ∧
    (readReg .status s).extractLsb' 24 6 = s.err.info ∧
    (readReg .status s).extractLsb' 30 2 = 0#2 ∧
    (readReg .status s).extractLsb' 20 3 ≠ 7#3

/-- A read while `BUSY = 1` is legal and shows the value of that instant: the live stage and line with no `DONE` and no error, the
live elapsed time, no results, and the stable `PIN` and budgets (R44). -/
def Obligations.ReadsWhileBusyAreLive : Prop :=
  ∀ s : State, Inv s → s.flags.busy = true →
    (∀ (r : HostReg) (rest : List HostAction), s.bus.script = .read .word r.offset :: rest →
      step s = .next { s with bus := { s.bus with script := rest, rdata := readReg r s } }) ∧
    (readReg .status s).getLsbD 0 = true ∧ (readReg .status s).getLsbD 1 = false ∧
    (readReg .status s).extractLsb' 20 3 = 0#3 ∧
    (readReg .status s).getLsbD 2 = s.flags.atomic ∧ (readReg .status s).extractLsb' 8 3 = s.seq.stage.code ∧
    (readReg .status s).getLsbD 11 = s.seq.sub ∧ (readReg .status s).extractLsb' 12 6 = s.seq.bitIdx ∧
    (readReg .status s).getLsbD 18 = s.pad.out ∧ (readReg .status s).getLsbD 19 = s.pad.oe ∧
    (readReg .dur s).toNat = s.et.elapsed.toNat ∧
    readReg .frameLo s = 0#32 ∧ readReg .frameHi s = 0#32 ∧ readReg .hum s = 0#32 ∧ readReg .temp s = 0#32 ∧
    readReg .pin s = s.regs.pin ∧ (readReg .tAck s).toNat = s.regs.tAck.toNat ∧
    (readReg .tReady s).toNat = s.regs.tReady.toNat ∧ (readReg .tDstart s).toNat = s.regs.tDstart.toNat ∧
    (readReg .tBitLow s).toNat = s.regs.tBitLow.toNat ∧ (readReg .tBitHigh s).toNat = s.regs.tBitHigh.toNat

/-- The register map, read: the offsets in order, and what each register but `STATUS` shows (R30, R38; R39 for the byte lanes). The
sign bits of `HUM` and `TEMP` stay as they are in the wider word. -/
def Obligations.RegisterMapReads : Prop :=
  HostReg.all.map HostReg.offset =
    [0x00, 0x04, 0x08, 0x0C, 0x10, 0x14, 0x18, 0x1C, 0x20, 0x24, 0x28, 0x2C, 0x30] ∧
  (∀ off : Nat, MappedOffset off ↔ ∃ r ∈ HostReg.all, r.offset = off) ∧
  ∀ s : State,
    readReg .cmd s = 0#32 ∧ readReg .pin s = s.regs.pin ∧
    (readReg .tAck s).toNat = s.regs.tAck.toNat ∧ (readReg .tReady s).toNat = s.regs.tReady.toNat ∧
    (readReg .tDstart s).toNat = s.regs.tDstart.toNat ∧ (readReg .tBitLow s).toNat = s.regs.tBitLow.toNat ∧
    (readReg .tBitHigh s).toNat = s.regs.tBitHigh.toNat ∧ (readReg .dur s).toNat = s.et.elapsed.toNat ∧
    (∀ k, k < 4 → (readReg .frameLo s).extractLsb' (8 * k) 8 = s.res.frame.byte k) ∧
    (readReg .frameHi s).toNat = (s.res.frame.byte 4).toNat ∧
    (readReg .hum s).toInt = s.res.hum.toInt ∧ (readReg .temp s).toInt = s.res.temp.toInt

/-- The result registers, `ERR`, `DONE` and `DUR` keep their values until the next command word is accepted or reset, and every
accepted word clears the results, whatever it is (R124, R139). -/
def Obligations.ResultsHeldUntilNextAcceptance : Prop :=
  (∀ s t : State, s.flags.busy = false → step s = .next t →
    (∀ w rest, s.bus.script ≠ .write .word 0x00 w :: rest) → (∀ rest, s.bus.script ≠ .rst true :: rest) →
    t.res = s.res ∧ t.err = s.err ∧ t.flags = s.flags ∧ t.et = s.et ∧ t.seq = s.seq ∧ t.pad = s.pad) ∧
  (∀ (s t : State) (w : Word) (rest : List HostAction), s.rst = false → s.flags.busy = false →
    s.bus.script = .write .word 0x00 w :: rest → step s = .next t → t.res = Results.clear)

/-- `WAIT` reads `STATUS` and is over when `BUSY = 0`; while `BUSY = 1` it stands and a microsecond passes (R67; once a microsecond is
the model's choice, log 15). -/
def Obligations.WaitPollsStatus : Prop :=
  ∀ (s : State) (rest : List HostAction), s.bus.script = .wait :: rest →
    (s.flags.busy = false → step s = .next { s with bus := ⟨rest, readReg .status s, noteRead .status s⟩ }) ∧
    (s.flags.busy = true →
      step s = tick { s with bus := { s.bus with rdata := readReg .status s, seen := noteRead .status s } })

/-- `GAP n` lets n microseconds pass and changes nothing else (R67): in an idle block nothing but the time, and whatever runs, each
step is a plain microsecond of the block, the same with no action of the host to come, and only the host's list differs. -/
def Obligations.GapPassesTime : Prop :=
  (∀ (n : Nat) (s : State) (rest : List HostAction), s.rst = false → s.flags.busy = false →
    s.bus.script = .gap n :: rest →
    Host.Core.run core (n + 1) s = .next
      { s with
        now := s.now + n
        bus := { s.bus with script := rest }
        env := { s.env with clock := s.env.clock + n } }) ∧
  (∀ s t : State, tick s = .next t →
    t.bus = s.bus ∧ (s.bus.script = [] → step s = .next t) ∧
    ∀ n rest, s.bus.script = .gap (n + 1) :: rest →
      step s = .next { t with bus := { t.bus with script := .gap n :: rest } }) ∧
  (∀ (s : State) (rest : List HostAction), s.bus.script = .gap 0 :: rest →
    step s = .next { s with bus := { s.bus with script := rest } })

/-! ### The Line Driver -/

/-- DRVL, DRVH and REL complete in the same instant: `LINE` is set, the results of an earlier command are cleared, `DONE` is 1, and
nothing else of the block changes; written while a command runs they are dropped; the worked examples of R86 to R88 hold
(R86 to R89; that exec itself drops them is the model's choice, log 16; the record of drives is the model's own, log 4, and is left
free here). -/
def Obligations.LineCommandsSetLine : Prop :=
  (∀ s : State, s.rst = false → s.flags.busy = false →
    (∃ t : State, exec .drvl s = .next t ∧ t =
      { s with
        pad := ⟨true, false⟩, res := Results.clear, err := ErrReg.clear
        et := { s.et with elapsed := 0#16 }, flags := { s.flags with done := true }
        env := { s.env with drives := t.env.drives } }) ∧
    (∃ t : State, exec .drvh s = .next t ∧ t =
      { s with
        pad := ⟨true, true⟩, res := Results.clear, err := ErrReg.clear
        et := { s.et with elapsed := 0#16 }, flags := { s.flags with done := true }
        env := { s.env with drives := t.env.drives } }) ∧
    (∃ t : State, exec .rel s = .next t ∧ t =
      { s with
        pad := ⟨false, false⟩, res := Results.clear, err := ErrReg.clear
        et := { s.et with elapsed := 0#16 }, flags := { s.flags with done := true }
        env := { s.env with drives := t.env.drives } })) ∧
  (∀ (s : State) (i : Instr), s.rst = false → s.flags.busy = true → i = .drvl ∨ i = .drvh ∨ i = .rel →
    exec i s = .next { s with flags := { s.flags with ovr := true } }) ∧
  encode .drvl = 0x10000000#32 ∧ encode .drvh = 0x20000000#32 ∧ encode .rel = 0x30000000#32 ∧
  (∀ t, exec .drvl State.reset = .next t → readReg .status t = 0x00080002#32) ∧
  (∀ t, exec .drvh State.reset = .next t → readReg .status t = 0x000C0002#32 ∧
    ∀ u, exec .rel t = .next u → readReg .status u = 0x00000002#32)

/-- Any command delivered while `BUSY = 1` is dropped with `OVR` set (R43), and one delivered while `rst` is asserted has no effect at
all (R148; that exec itself answers so is the model's choice, logs 6 and 16). -/
def Obligations.CommandsDroppedWhileBusy : Prop :=
  ∀ (i : Instr) (s : State),
    (s.rst = false → s.flags.busy = true → exec i s = .next { s with flags := { s.flags with ovr := true } }) ∧
    (s.rst = true → exec i s = .next s)

/-- `LINE` changes only by reset, by a command other than AWAIT accepted when idle, or while an acquisition runs (R85). -/
def Obligations.LineWrittenOnlyByDriver : Prop :=
  ∀ s t : State, step s = .next t → t.pad ≠ s.pad →
    (∃ rest, s.bus.script = .rst true :: rest) ∨
    (∃ w rest i, s.bus.script = .write .word 0x00 w :: rest ∧ decode w = .command i ∧ s.rst = false ∧ s.flags.busy = false ∧
      ∀ level budget, i ≠ .await level budget) ∨
    (s.flags.busy = true ∧ s.seq.stage ≠ .idle)

/-! ### The Edge Timer -/

/-- AWAIT at its acceptance: with a budget of at least one polling interval the poll loop starts, and nothing but it, `BUSY` and the
cleared results has changed; with a smaller budget it is over at once with TimeoutError, no sample taken (R82, R83, R64; that
ET_BUDGET and ET_LEVEL then keep the operands is the model's choice, log 20). -/
def Obligations.AwaitStarts : Prop :=
  ∀ (s : State) (level : Bool) (budget : Nat), s.rst = false → s.flags.busy = false → budget < 65536 →
    (s.cfg.pollUs ≤ budget →
      exec (.await level budget) s = .next
        { s with
          res := Results.clear
          err := ErrReg.clear
          et := ⟨0#16, BitVec.ofNat 16 budget, level, true, 0#3⟩
          flags := { s.flags with busy := true, done := false } }) ∧
    (budget < s.cfg.pollUs →
      exec (.await level budget) s = .next
        { s with
          res := Results.clear
          err := ⟨.timeoutError, 0#6⟩
          et := ⟨0#16, BitVec.ofNat 16 budget, level, false, 0#3⟩
          flags := { s.flags with busy := false, done := true } })

/-- AWAIT from acceptance to completion, whatever the line does (R73): with a first match at sample k it ends after k intervals with
`DUR = k * P`; with none it ends after `floor(B / P)` intervals with TimeoutError. The next state is given whole (ET_BUDGET and
ET_LEVEL after the end are the model's choice, log 20). -/
def Obligations.AwaitMeasuresFirstMatch : Prop :=
  ∀ (s : State) (level : Bool) (budget : Nat), Inv s → s.rst = false → s.flags.busy = false → budget < 65536 →
    ∃ u : State, exec (.await level budget) s = .next u ∧
      (∀ k, 1 ≤ k → k ≤ budget / s.cfg.pollUs →
        s.env.lineAt (s.env.clock + k * s.cfg.pollUs) = level →
        (∀ j, 1 ≤ j → j < k → s.env.lineAt (s.env.clock + j * s.cfg.pollUs) ≠ level) →
        runTicks (k * s.cfg.pollUs) u = .next
          { s with
            now := s.now + k * s.cfg.pollUs
            env := { s.env with clock := s.env.clock + k * s.cfg.pollUs }
            et := ⟨BitVec.ofNat 16 (k * s.cfg.pollUs), BitVec.ofNat 16 budget, level, false, 0#3⟩
            res := Results.clear
            err := ErrReg.clear
            flags := { s.flags with done := true } }) ∧
      ((∀ k, 1 ≤ k → k ≤ budget / s.cfg.pollUs → s.env.lineAt (s.env.clock + k * s.cfg.pollUs) ≠ level) →
        runTicks (budget / s.cfg.pollUs * s.cfg.pollUs) u = .next
          { s with
            now := s.now + budget / s.cfg.pollUs * s.cfg.pollUs
            env := { s.env with clock := s.env.clock + budget / s.cfg.pollUs * s.cfg.pollUs }
            et := ⟨BitVec.ofNat 16 (budget / s.cfg.pollUs * s.cfg.pollUs), BitVec.ofNat 16 budget, level, false, 0#3⟩
            res := Results.clear
            err := ⟨.timeoutError, 0#6⟩
            flags := { s.flags with done := true } })

/-- What the host sees `x` microseconds into a running AWAIT: `DUR` is `x` rounded down to whole intervals, and nothing but the
Edge Timer, the time and the cleared results has changed (R77, R79). -/
def Obligations.AwaitLiveView : Prop :=
  ∀ (s : State) (level : Bool) (budget x : Nat), Inv s → s.rst = false → s.flags.busy = false → budget < 65536 →
    x < budget / s.cfg.pollUs * s.cfg.pollUs →
    (∀ j, 1 ≤ j → j * s.cfg.pollUs ≤ x → s.env.lineAt (s.env.clock + j * s.cfg.pollUs) ≠ level) →
    ∃ u : State, exec (.await level budget) s = .next u ∧
      runTicks x u = .next
        { s with
          now := s.now + x
          env := { s.env with clock := s.env.clock + x }
          et := ⟨BitVec.ofNat 16 (x / s.cfg.pollUs * s.cfg.pollUs), BitVec.ofNat 16 budget, level, true,
            BitVec.ofNat 3 (x % s.cfg.pollUs)⟩
          res := Results.clear
          err := ErrReg.clear
          flags := { s.flags with busy := true, done := false } }

/-- A level reached `e` microseconds after the call, and held to the next sample, is measured as `e` rounded up to whole intervals
(R81). -/
def Obligations.AwaitQuantises : Prop :=
  ∀ (s : State) (level : Bool) (budget e : Nat), Inv s → s.rst = false → s.flags.busy = false → budget < 65536 →
    1 ≤ e → e ≤ budget / s.cfg.pollUs * s.cfg.pollUs →
    (∀ t, s.env.clock < t → t < s.env.clock + e → s.env.lineAt t ≠ level) →
    (∀ t, s.env.clock + e ≤ t → t ≤ s.env.clock + (e + s.cfg.pollUs - 1) / s.cfg.pollUs * s.cfg.pollUs →
      s.env.lineAt t = level) →
    ∃ u v : State, exec (.await level budget) s = .next u ∧
      runTicks ((e + s.cfg.pollUs - 1) / s.cfg.pollUs * s.cfg.pollUs) u = .next v ∧
      v.et.elapsed.toNat = (e + s.cfg.pollUs - 1) / s.cfg.pollUs * s.cfg.pollUs ∧
      v.err = ErrReg.clear ∧ v.flags.busy = false ∧ v.flags.done = true

/-! ### The Frame Decoder -/

/-- ACQ with nothing requested: InvalidArgument at once; `LINE`, `ATOMIC`, `SEQ`, `BITBUF` and `BUSY` as they were; no other argument
is checked; the worked example of R95 holds (R95, R126). -/
def Obligations.AcqNoneInvalidArgument : Prop :=
  (∀ s : State, s.rst = false → s.flags.busy = false →
    exec (.acq false false) s = .next
      { s with
        dec := { s.dec with wantH := false, wantT := false }
        res := Results.clear
        et := { s.et with elapsed := 0#16 }
        err := ⟨.invalidArgument, 0#6⟩
        flags := { s.flags with done := true } }) ∧
  (∀ (s : State) (wantH wantT : Bool), s.rst = false → s.flags.busy = false → (wantH || wantT) = true →
    ∃ t : State, exec (.acq wantH wantT) s = .next t ∧ t.flags.busy = true ∧ t.err = ErrReg.clear) ∧
  (∀ t, exec (.acq false false) State.reset = .next t → readReg .status t = 0x00100002#32)

/-- ACQ with a reading requested starts whatever `PIN` and the budgets hold: the request is latched, the bit buffer cleared, the window
opened and the line driven low, at the instant of acceptance (R94, R107, the first row of R115; the record of drives is the model's,
log 4). -/
def Obligations.AcqStarts : Prop :=
  ∀ (s : State) (wantH wantT : Bool), s.rst = false → s.flags.busy = false → (wantH || wantT) = true →
    exec (.acq wantH wantT) s = .next
      { s with
        dec := { s.dec with wantH := wantH, wantT := wantT, bitBuf := 0#40 }
        res := Results.clear
        et := { s.et with elapsed := 0#16 }
        err := ErrReg.clear
        flags := { s.flags with busy := true, done := false, atomic := true }
        seq := ⟨.startPulse, false, 0#6⟩
        dly := BitVec.ofNat 16 s.cfg.startLowUs
        pad := Pad.L
        env := { s.env with drives := (s.env.clock, Pad.L) :: s.env.drives } }

/-- The start pulse: low for `START_LOW_US`, high for `START_HIGH_US`, then released with the stage-2 wait started; with a `T_ACK`
below `POLL_US` that wait has already timed out (R97 for the pulse; R83, R94, R98, R110, R111, R127 for the timeout). -/
def Obligations.StartPulseShape : Prop :=
  ∀ (s : State) (wantH wantT : Bool), Inv s → s.rst = false → s.flags.busy = false → (wantH || wantT) = true →
    ∃ u : State, exec (.acq wantH wantT) s = .next u ∧
      (∀ x, x < s.cfg.startLowUs → ∃ v, runTicks x u = .next v ∧ v.now = s.now + x ∧
        v.pad = Pad.L ∧ v.seq = ⟨.startPulse, false, 0#6⟩) ∧ 18000 ≤ s.cfg.startLowUs ∧
      (∀ x, s.cfg.startLowUs ≤ x → x < s.cfg.startLowUs + s.cfg.startHighUs → ∃ v, runTicks x u = .next v ∧
        v.now = s.now + x ∧ v.pad = Pad.H ∧ v.seq = ⟨.startPulse, true, 0#6⟩) ∧
      (∃ v, runTicks (s.cfg.startLowUs + s.cfg.startHighUs) u = .next v ∧
        v.now = s.now + s.cfg.startLowUs + s.cfg.startHighUs ∧
        (s.cfg.pollUs ≤ s.regs.tAck.toNat → v.pad = Pad.Z ∧ v.seq = ⟨.awaitSensorAck, false, 0#6⟩ ∧
          v.et = ⟨0#16, s.regs.tAck, false, true, 0#3⟩ ∧ v.flags.busy = true ∧ v.flags.atomic = true) ∧
        (¬ s.cfg.pollUs ≤ s.regs.tAck.toNat → v.pad = Pad.H ∧ v.seq = ⟨.idle, false, 0#6⟩ ∧
          v.err = ⟨.handshakeTimeout, 2#6⟩ ∧ v.flags.busy = false ∧ v.flags.atomic = false))

/-- The handshake rows of R115: a sample at the expected level moves each of stages 2, 3, 4 to the next, whose wait starts at that
instant with its own budget and level; nothing else changes (R98, R99, R100). -/
def Obligations.HandshakeStagesAdvance : Prop :=
  ∀ s : State, Inv s → s.SampleNext → s.nextLine = s.et.level →
    (s.seq.stage = .awaitSensorAck → s.cfg.pollUs ≤ s.regs.tReady.toNat →
      tick s = .next
        { s with
          now := s.now + 1, env := { s.env with clock := s.env.clock + 1 }
          seq := ⟨.awaitSensorReady, false, 0#6⟩, et := ⟨0#16, s.regs.tReady, true, true, 0#3⟩ }) ∧
    (s.seq.stage = .awaitSensorReady → s.cfg.pollUs ≤ s.regs.tDstart.toNat →
      tick s = .next
        { s with
          now := s.now + 1, env := { s.env with clock := s.env.clock + 1 }
          seq := ⟨.awaitDataStart, false, 0#6⟩, et := ⟨0#16, s.regs.tDstart, false, true, 0#3⟩ }) ∧
    (s.seq.stage = .awaitDataStart → s.cfg.pollUs ≤ s.regs.tBitLow.toNat →
      tick s = .next
        { s with
          now := s.now + 1, env := { s.env with clock := s.env.clock + 1 }
          seq := ⟨.readBit, false, 0#6⟩, et := ⟨0#16, s.regs.tBitLow, true, true, 0#3⟩ })

/-- A stage whose last sample misses ends the acquisition at that instant: the window closes, the line is driven high, the error carries
the stage (R127) or the bit index (R128); no bit already decided is touched, and no result is delivered (ET_BUDGET and ET_LEVEL after
the end, the record of drives and `lastEnd` are the model's, logs 20, 4, 14). -/
def Obligations.StageTimeoutsFail : Prop :=
  ∀ (s : State) (code : ErrCode) (info : BitVec 6), Inv s → s.SampleNext → s.LastSample → s.nextLine ≠ s.et.level →
    (s.seq.stage = .awaitSensorAck ∧ code = .handshakeTimeout ∧ info = 2#6 ∨
      s.seq.stage = .awaitSensorReady ∧ code = .handshakeTimeout ∧ info = 3#6 ∨
      s.seq.stage = .awaitDataStart ∧ code = .handshakeTimeout ∧ info = 4#6 ∨
      s.seq.stage = .readBit ∧ code = .bitTimeout ∧ info = s.seq.bitIdx) →
    tick s = .next
      { s with
        now := s.now + 1
        pad := Pad.H
        seq := ⟨.idle, false, 0#6⟩
        et := ⟨s.nextElapsed, s.et.budget, s.et.level, false, 0#3⟩
        flags := { s.flags with busy := false, done := true, atomic := false }
        err := ⟨code, info⟩
        env :=
          { s.env with
            clock := s.env.clock + 1
            drives := (s.env.clock + 1, Pad.H) :: s.env.drives
            lastEnd := s.env.clock + 1 } }

/-- A stage or phase whose budget is below `POLL_US` fails at the instant it would start, with no sample of its own, and with its own
stage or bit index (R83 for the timeout, R115 for the row; ET_BUDGET and ET_LEVEL after the end, the record of drives and `lastEnd`
are the model's, logs 20, 4, 14). -/
def Obligations.ShortBudgetFailsAtOnce : Prop :=
  ∀ (s : State) (b : Dur) (level : Bool) (code : ErrCode) (info : BitVec 6) (buf : BitVec 40), Inv s →
    s.SampleNext → s.nextLine = s.et.level → b.toNat < s.cfg.pollUs →
    (s.seq.stage = .awaitSensorAck ∧ b = s.regs.tReady ∧ level = true ∧ code = .handshakeTimeout ∧ info = 3#6 ∧
        buf = s.dec.bitBuf ∨
      s.seq.stage = .awaitSensorReady ∧ b = s.regs.tDstart ∧ level = false ∧ code = .handshakeTimeout ∧ info = 4#6 ∧
        buf = s.dec.bitBuf ∨
      s.seq.stage = .awaitDataStart ∧ b = s.regs.tBitLow ∧ level = true ∧ code = .bitTimeout ∧ info = 0#6 ∧
        buf = s.dec.bitBuf ∨
      s.seq.stage = .readBit ∧ s.seq.sub = false ∧ b = s.regs.tBitHigh ∧ level = false ∧ code = .bitTimeout ∧
        info = s.seq.bitIdx ∧ buf = s.dec.bitBuf ∨
      s.seq.stage = .readBit ∧ s.seq.sub = true ∧ s.seq.bitIdx.toNat < 39 ∧ b = s.regs.tBitLow ∧ level = true ∧
        code = .bitTimeout ∧ info = s.seq.bitIdx + 1#6 ∧
        ∀ j, j < 40 → buf.getLsbD j =
          if j = s.seq.bitIdx.toNat then decide (s.dec.lowDur.toNat < s.nextElapsed.toNat) else s.dec.bitBuf.getLsbD j) →
    tick s = .next
      { s with
        now := s.now + 1
        pad := Pad.H
        seq := ⟨.idle, false, 0#6⟩
        et := ⟨0#16, b, level, false, 0#3⟩
        dec :=
          { s.dec with
            bitBuf := buf
            lowDur := if s.seq.stage = .readBit ∧ s.seq.sub = false then s.nextElapsed else s.dec.lowDur
            highDur := if s.seq.sub = true then s.nextElapsed else s.dec.highDur }
        flags := { s.flags with busy := false, done := true, atomic := false }
        err := ⟨code, info⟩
        env :=
          { s.env with
            clock := s.env.clock + 1
            drives := (s.env.clock + 1, Pad.H) :: s.env.drives
            lastEnd := s.env.clock + 1 } }

/-- ReadBit: the low phase's measured duration is kept and the high phase starts; the high phase's duration decides bit `i`, no other
bit of the buffer changes, and bit `i + 1` starts (R101, R102, R103). -/
def Obligations.BitPhasesMeasureAndDecide : Prop :=
  ∀ s : State, Inv s → s.SampleNext → s.nextLine = s.et.level → s.seq.stage = .readBit →
    (s.seq.sub = false → s.cfg.pollUs ≤ s.regs.tBitHigh.toNat →
      tick s = .next
        { s with
          now := s.now + 1, env := { s.env with clock := s.env.clock + 1 }
          seq := ⟨.readBit, true, s.seq.bitIdx⟩
          dec := { s.dec with lowDur := s.nextElapsed }
          et := ⟨0#16, s.regs.tBitHigh, false, true, 0#3⟩ }) ∧
    (s.seq.sub = true → s.seq.bitIdx.toNat < 39 → s.cfg.pollUs ≤ s.regs.tBitLow.toNat →
      ∃ t : State, tick s = .next t ∧
        t = { s with
          now := s.now + 1, env := { s.env with clock := s.env.clock + 1 }
          seq := ⟨.readBit, false, s.seq.bitIdx + 1#6⟩
          dec := { s.dec with highDur := s.nextElapsed, bitBuf := t.dec.bitBuf }
          et := ⟨0#16, s.regs.tBitLow, true, true, 0#3⟩ } ∧
        ∀ j, j < 40 → t.dec.bitBuf.getLsbD j =
          if j = s.seq.bitIdx.toNat then decide (s.dec.lowDur.toNat < s.nextElapsed.toNat) else s.dec.bitBuf.getLsbD j)

/-- The last bit: the window closes, the frame is checked, and at that instant either the validated frame and the requested readings
are delivered (R105, R106, R120) or ChecksumMismatch is reported with no reading (R105, R129; ET_BUDGET and ET_LEVEL after the end,
the record of drives and `lastEnd` are the model's, logs 20, 4, 14). -/
def Obligations.LastBitDeliversOrRejects : Prop :=
  ∀ (s : State) (buf : BitVec 40), Inv s → s.SampleNext → s.nextLine = s.et.level →
    s.seq = ⟨.readBit, true, 39#6⟩ →
    (∀ j, j < 40 → buf.getLsbD j =
      if j = 39 then decide (s.dec.lowDur.toNat < s.nextElapsed.toNat) else s.dec.bitBuf.getLsbD j) →
    tick s = .next
      { s with
        now := s.now + 1
        pad := Pad.H
        seq := ⟨.idle, false, 0#6⟩
        et := ⟨s.nextElapsed, s.et.budget, s.et.level, false, 0#3⟩
        dec := { s.dec with highDur := s.nextElapsed, bitBuf := buf }
        flags := { s.flags with busy := false, done := true, atomic := false }
        res :=
          if (pack buf).b4.toNat =
              ((pack buf).b0.toNat + (pack buf).b1.toNat + (pack buf).b2.toNat + (pack buf).b3.toNat) % 256 then
            { frame := pack buf
              hum := if s.dec.wantH = true then BitVec.ofNat 16 ((pack buf).b0.toNat * 10) else 0#16
              temp := if s.dec.wantT = true then BitVec.ofNat 16 ((pack buf).b2.toNat * 10) else 0#16
              hvalid := s.dec.wantH
              tvalid := s.dec.wantT }
          else Results.clear
        err :=
          if (pack buf).b4.toNat =
              ((pack buf).b0.toNat + (pack buf).b1.toNat + (pack buf).b2.toNat + (pack buf).b3.toNat) % 256 then
            ErrReg.clear
          else ⟨.checksumMismatch, 0#6⟩
        env :=
          { s.env with
            clock := s.env.clock + 1
            drives := (s.env.clock + 1, Pad.H) :: s.env.drives
            lastEnd := s.env.clock + 1 } }

/-- Packing: bit `8k + j` to arrive is bit `7 - j` of byte `k` (R104). -/
def Obligations.PackMostSignificantFirst : Prop :=
  ∀ (buf : BitVec 40) (k j : Nat), k < 5 → j < 8 →
    ((pack buf).byte k).getLsbD (7 - j) = buf.getLsbD (8 * k + j)

/-- The bit decision is 1 exactly when the high phase is the longer (R102). -/
def Obligations.BitDecision : Prop :=
  ∀ low high : Dur, decideBit low high = true ↔ high.toNat > low.toNat

/-- Conversion is exact scaling by 10, in 0 to 2550 (R118). -/
def Obligations.ConversionExact : Prop :=
  ∀ b : Byte, (convert b).toNat = b.toNat * 10 ∧ (convert b).toNat ≤ 2550

/-- The machine's run of ACQ, tick by tick, ends in exactly the state that the sequence of R94 computes in one go, after exactly the
time that sequence takes. -/
def Obligations.AcqRunsAsWritten : Prop :=
  ∀ (s : State) (wantH wantT : Bool), Inv s → s.rst = false → s.flags.busy = false →
    ∃ (u : State) (k : Nat), exec (.acq wantH wantT) s = .next u ∧
      runTicks k u = .next (acqCommand wantH wantT (accept s)) ∧
      (acqCommand wantH wantT (accept s)).now = s.now + k

/-- A line that carries a transmission within the budgets is decoded: the acquisition ends at the instant of R116 with the bits
decided by the measured phases, delivers the readings if the checksum holds, and reports ChecksumMismatch if not. -/
def Obligations.TransmissionDecoded : Prop :=
  ∀ (s : State) (wantH wantT : Bool) (x : Transmission) (buf : BitVec 40),
    Inv s → s.rst = false → s.flags.busy = false → (wantH || wantT) = true → x.CarriedBy s → x.Leaves buf →
    ∃ u v : State, exec (.acq wantH wantT) s = .next u ∧
      runTicks (x.bitStart s.cfg.pollUs (x.firstBit s) 40 - s.env.clock) u = .next v ∧
      v.env.clock = x.bitStart s.cfg.pollUs (x.firstBit s) 40 ∧
      v.dec.bitBuf = buf ∧ v.pad = Pad.H ∧ v.seq = ⟨.idle, false, 0#6⟩ ∧
      v.flags.busy = false ∧ v.flags.done = true ∧ v.flags.atomic = false ∧
      v.et.elapsed.toNat = x.high 39 * s.cfg.pollUs ∧
      ((pack buf).b4.toNat =
          ((pack buf).b0.toNat + (pack buf).b1.toNat + (pack buf).b2.toNat + (pack buf).b3.toNat) % 256 →
        v.err = ErrReg.clear ∧ v.res.frame = pack buf ∧ v.res.hvalid = wantH ∧ v.res.tvalid = wantT ∧
        v.res.hum.toNat = (if wantH = true then (pack buf).b0.toNat * 10 else 0) ∧
        v.res.temp.toNat = (if wantT = true then (pack buf).b2.toNat * 10 else 0)) ∧
      ((pack buf).b4.toNat ≠
          ((pack buf).b0.toNat + (pack buf).b1.toNat + (pack buf).b2.toNat + (pack buf).b3.toNat) % 256 →
        v.err = ⟨.checksumMismatch, 0#6⟩ ∧ v.res = Results.clear)

/-- Idempotence: from two idle states that agree on the parameters, the registers and the line, an acquisition shows the same outcome
the same time after its acceptance, whatever else differs, the instant of acceptance among it (R114; what the free part of the line may
depend on is the model's choice, log 4). -/
def Obligations.AcquisitionHasNoResidue : Prop :=
  ∀ (s₁ s₂ : State) (wantH wantT : Bool) (k : Nat),
    Inv s₁ → Inv s₂ → s₁.rst = false → s₂.rst = false → s₁.flags.busy = false → s₂.flags.busy = false →
    s₁.cfg = s₂.cfg → s₁.regs = s₂.regs → SameLine s₁ s₂ →
    ∃ u₁ u₂ v₁ v₂ : State,
      exec (.acq wantH wantT) s₁ = .next u₁ ∧ exec (.acq wantH wantT) s₂ = .next u₂ ∧
      runTicks k u₁ = .next v₁ ∧ runTicks k u₂ = .next v₂ ∧
      v₁.res = v₂.res ∧ v₁.err = v₂.err ∧ v₁.seq = v₂.seq ∧ v₁.et.elapsed = v₂.et.elapsed ∧
      v₁.dec.bitBuf = (if (wantH || wantT) = true then v₂.dec.bitBuf else s₁.dec.bitBuf) ∧
      v₁.flags.busy = v₂.flags.busy ∧ v₁.flags.done = v₂.flags.done ∧ v₁.flags.atomic = v₂.flags.atomic ∧
      ((wantH || wantT) = true → v₁.pad = v₂.pad)

/-- What an acquisition never touches, at any instant of its run and after it: the parameters, `PIN`, the budgets, `OVR`, the host's
end of the bus and the given stimulus; the reads of `CMD`, `PIN` and the budget registers are as before (R136, R158). -/
def Obligations.AcqFrame : Prop :=
  ∀ (s u v : State) (wantH wantT : Bool) (k : Nat), s.flags.busy = false →
    exec (.acq wantH wantT) s = .next u → runTicks k u = .next v →
    v.cfg = s.cfg ∧ v.rst = s.rst ∧ v.regs = s.regs ∧ v.flags.ovr = s.flags.ovr ∧ v.bus = s.bus ∧ v.env.stim = s.env.stim ∧
    ∀ r ∈ [HostReg.cmd, .pin, .tAck, .tReady, .tDstart, .tBitLow, .tBitHigh], readReg r v = readReg r s

/-! ### The whole machine -/

/-- Every command ends, within the bound of R160, whatever the line does, and at its end the block is idle with the window closed
(R163); until then `BUSY = 1` and `DONE = 0`. -/
def Obligations.EveryCommandEnds : Prop :=
  ∀ (i : Instr) (s : State), i.WellFormed → Inv s → s.rst = false → s.flags.busy = false →
    ∃ (u v : State) (k : Nat), exec i s = .next u ∧ k ≤ longestRun i s ∧ runTicks k u = .next v ∧
      v.now = s.now + k ∧ v.flags.busy = false ∧ v.flags.done = true ∧ v.flags.atomic = false ∧
      v.seq = ⟨.idle, false, 0#6⟩ ∧
      ∀ j, j < k → ∃ w : State, runTicks j u = .next w ∧ w.flags.busy = true ∧ w.flags.done = false

/-- The invariant holds at reset. -/
def Obligations.InvariantAtReset : Prop := Inv State.reset

/-- Every step from a state that meets the invariant gives a state that meets it. -/
def Obligations.InvariantKeptByStep : Prop :=
  ∀ s t : State, Inv s → step s = .next t → Inv t

/-- R36 in every run from reset: any legal parameters, any stimulus, any host program. -/
def Obligations.SpecInvariantAlongRuns : Prop :=
  ∀ (c : Config) (script : List HostAction) (stim : List (Nat × Bool)) (k : Nat) (t : State), c.Legal →
    Host.Core.run core k
      ((State.initial c).setBus ⟨script, 0#32, Seen.nothing⟩ |>.setEnv ⟨0, stim, [], 0⟩) = .next t →
    SpecInvariant t

/-- No state that meets the invariant is stuck: the step never faults, and it refuses only an access that R40 gives no meaning (the
fault is the model's, log 10). -/
def Obligations.StepNeverStuck : Prop :=
  ∀ s : State, Inv s →
    (∀ f, step s ≠ .fault f) ∧
    (∀ r, step s = .refused r → ∃ a rest, s.bus.script = a :: rest ∧ ¬ a.WellFormed)

/-- A host that keeps its duties never sets `OVR` and never makes an undefined access (R132, R153, R162; the
gap's parameter and start are log 14, what collecting takes is log 24). -/
def Obligations.DutifulHostNeverOverruns : Prop :=
  ∀ s : State, Inv s → s.Safe → nextActionDutiful s = true → ∃ t, step s = .next t ∧ t.Safe

/-- While a command runs, nothing but reset changes `PIN`, a budget or a parameter (R43, R158); no write stops it: the stage and the
flags change only by the passing of time (R113). -/
def Obligations.RunningCommandUndisturbed : Prop :=
  ∀ s t : State, s.rst = false → s.flags.busy = true → (∀ rest, s.bus.script ≠ .rst true :: rest) → step s = .next t →
    t.cfg = s.cfg ∧ t.rst = false ∧ t.regs = s.regs ∧
    (t.now = s.now →
      t = { s with bus := t.bus, flags := { s.flags with ovr := t.flags.ovr } })

/-- The window opens only when an ACQ with a reading requested is accepted (R107), and no step from a state of the invariant leaves it
open with the command over (R108). -/
def Obligations.WindowDiscipline : Prop :=
  (∀ s t : State, step s = .next t → s.flags.atomic = false → t.flags.atomic = true →
    s.rst = false ∧ s.flags.busy = false ∧ ∃ w rest wantH wantT, s.bus.script = .write .word 0x00 w :: rest ∧
      decode w = .command (.acq wantH wantT) ∧ (wantH || wantT) = true) ∧
  (∀ s t : State, Inv s → step s = .next t → t.flags.busy = false → t.flags.atomic = false)

/-- `FRAME`, `HUM`, `TEMP` and their valid flags are written with anything but zero only by the last sample of the last bit (R106). -/
def Obligations.ResultsOnlyFromLastBit : Prop :=
  ∀ s t : State, Inv s → step s = .next t → t.res ≠ s.res → t.res ≠ Results.clear →
    s.SampleNext ∧ s.nextLine = s.et.level ∧ s.seq = ⟨.readBit, true, 39#6⟩ ∧ t.res.frame.valid = true

/-- Between tick boundaries the sequencer moves only along the rows of R115, several rows at one instant where a stage takes no time
(Checksum, Done, a budget below `POLL_US`, `START_HIGH_US = 0`); reset apart, there is no other way. -/
def Obligations.SequencerMovesInOrder : Prop :=
  ∀ s t : State, Inv s → step s = .next t → (∀ rest, s.bus.script ≠ .rst true :: rest) →
    t.seq = s.seq ∨
    (s.seq = ⟨.idle, false, 0#6⟩ ∧ t.seq = ⟨.startPulse, false, 0#6⟩) ∨
    (s.seq = ⟨.startPulse, false, 0#6⟩ ∧ s.cfg.startHighUs ≠ 0 ∧ t.seq = ⟨.startPulse, true, 0#6⟩) ∨
    (s.seq.stage = .startPulse ∧ (s.seq.sub = true ∨ s.cfg.startHighUs = 0) ∧
      (t.seq = ⟨.awaitSensorAck, false, 0#6⟩ ∨ s.regs.tAck.toNat < s.cfg.pollUs ∧ t.seq = ⟨.idle, false, 0#6⟩)) ∨
    (s.seq = ⟨.awaitSensorAck, false, 0#6⟩ ∧ t.seq = ⟨.awaitSensorReady, false, 0#6⟩) ∨
    (s.seq = ⟨.awaitSensorReady, false, 0#6⟩ ∧ t.seq = ⟨.awaitDataStart, false, 0#6⟩) ∨
    (s.seq = ⟨.awaitDataStart, false, 0#6⟩ ∧ t.seq = ⟨.readBit, false, 0#6⟩) ∨
    (s.seq.stage = .readBit ∧ s.seq.sub = false ∧ t.seq = ⟨.readBit, true, s.seq.bitIdx⟩) ∨
    (s.seq.stage = .readBit ∧ s.seq.sub = true ∧ s.seq.bitIdx.toNat < 39 ∧
      t.seq = ⟨.readBit, false, s.seq.bitIdx + 1#6⟩) ∨
    (s.seq.stage.Waits ∧ t.seq = ⟨.idle, false, 0#6⟩)

/-- Direction discipline: where no DRVL, DRVH or REL is issued, the pad is driven exactly in StartPulse, and in Idle once an
acquisition has run past its argument check since reset (R90, R91), through resets too. -/
def Obligations.AcqAloneKeepsDirection : Prop :=
  (∀ (c : Config) (b : Bus) (e : Env), DirectionKept ((State.initial c).setBus b |>.setEnv e) false) ∧
  ∀ (s t : State) (acquired : Bool), Inv s → DirectionKept s acquired → step s = .next t →
    (∀ w rest, s.bus.script = .write .word 0x00 w :: rest →
      decode w ≠ .command .drvl ∧ decode w ≠ .command .drvh ∧ decode w ≠ .command .rel) →
    DirectionKept t (acquiredAfterStep s acquired)

/-- Time: a step keeps `now`, advances it by one microsecond, or restarts it by reset; a register access takes none (R8, R41). -/
def Obligations.TimeAdvancesByMicroseconds : Prop :=
  (∀ s t : State, step s = .next t →
    t.now = s.now ∨ t.now = s.now + 1 ∨ (t.now = 0 ∧ ∃ rest, s.bus.script = .rst true :: rest)) ∧
  (∀ (s t : State) (size : Size) (off : Nat) (v : Word) (rest : List HostAction), step s = .next t →
    s.bus.script = .write size off v :: rest ∨ s.bus.script = .read size off :: rest → t.now = s.now)

/-! ### Reset -/

/-- Every element of the block at reset, and what every register reads (R35; the parameters are at their defaults). -/
def Obligations.ResetValues : Prop :=
  State.reset.seq.stage.code = 0#3 ∧ State.reset.seq.sub = false ∧ State.reset.seq.bitIdx = 0#6 ∧
  State.reset.pad.out = false ∧ State.reset.pad.oe = false ∧
  State.reset.et = ⟨0#16, 0#16, false, false, 0#3⟩ ∧ State.reset.dly = 0#16 ∧
  State.reset.dec = ⟨0#16, 0#16, 0#40, false, false⟩ ∧
  State.reset.res = ⟨⟨0#8, 0#8, 0#8, 0#8, 0#8⟩, 0#16, 0#16, false, false⟩ ∧
  State.reset.flags = ⟨false, false, false, false⟩ ∧
  State.reset.err.code.code = 0#3 ∧ State.reset.err.info = 0#6 ∧
  State.reset.rst = false ∧ State.reset.regs = ⟨0#32, 40#16, 80#16, 80#16, 65#16, 75#16⟩ ∧ State.reset.now = 0 ∧
  HostReg.all.map (fun r => readReg r State.reset) =
    [0#32, 0#32, 0#32, 40#32, 80#32, 80#32, 65#32, 75#32, 0#32, 0#32, 0#32, 0#32, 0#32]

/-- Reset at any instant abandons a running command without a trace: every element of the block is at its reset value, `OVR` among
them; only the parameters, the host's side and the environment stay (R148, R150; what stays is the model's choice, log 6). -/
def Obligations.ResetAbandonsCommand : Prop :=
  ∀ (s : State) (rest : List HostAction), s.cfg.Legal → s.rst = false → s.bus.script = .rst true :: rest →
    ∃ t : State, step s = .next t ∧
      t.cfg = s.cfg ∧ t.rst = true ∧ t.seq = ⟨.idle, false, 0#6⟩ ∧ t.pad = Pad.Z ∧
      t.et = ⟨0#16, 0#16, false, false, 0#3⟩ ∧ t.dly = 0#16 ∧ t.dec = ⟨0#16, 0#16, 0#40, false, false⟩ ∧
      t.res = Results.clear ∧ t.flags = ⟨false, false, false, false⟩ ∧ t.err = ErrReg.clear ∧
      t.regs = ⟨0#32, 40#16, 80#16, 80#16, 65#16, 75#16⟩ ∧ t.now = 0 ∧
      t.bus = { s.bus with script := rest } ∧
      t.env = ⟨s.env.clock, s.env.stim, (s.env.clock, Pad.Z) :: s.env.drives, s.env.clock⟩

/-- While `rst` is asserted, and at the instant it is released, every element of the block holds its reset value (R148): every register
reads it, a write changes nothing, time passes without the block, and the release changes nothing but the level of `rst` (how accesses
and time show in the span is the model's choice, log 6). -/
def Obligations.ResetHoldsWhileAsserted : Prop :=
  ∀ s : State, Inv s → s.rst = true →
    s = { State.initial s.cfg with rst := true, bus := s.bus, env := s.env } ∧
    (∀ (r : HostReg) (rest : List HostAction), s.bus.script = .read .word r.offset :: rest →
      step s = .next { s with bus := { s.bus with script := rest, rdata := readReg r (State.initial s.cfg) } }) ∧
    (∀ (off : Nat) (v : Word) (rest : List HostAction), MappedOffset off → s.bus.script = .write .word off v :: rest →
      ∃ t : State, step s = .next t ∧ t = { s with bus := { s.bus with script := rest, seen := t.bus.seen } }) ∧
    tick s = .next { s with env := { s.env with clock := s.env.clock + 1 } } ∧
    (∀ rest : List HostAction, s.bus.script = .rst true :: rest →
      step s = .next { s with bus := { s.bus with script := rest } }) ∧
    (∀ rest : List HostAction, s.bus.script = .rst false :: rest →
      step s = .next
        { State.initial s.cfg with
          bus := { s.bus with script := rest }
          env := { s.env with lastEnd := s.env.clock } })
end

