-- ==== Sys2Proof/Laws/State.lean ====
section
/-! SUPPORT. What each update of the state writes and leaves: one lemma per group and update. -/

namespace Sys2Proof.Machine

variable (s : State)

@[simp] theorem State.setRst_rst (r : Bool) : (s.setRst r).rst = r := rfl
@[simp] theorem State.setRst_cfg (r : Bool) : (s.setRst r).cfg = s.cfg := rfl
@[simp] theorem State.setRst_seq (r : Bool) : (s.setRst r).seq = s.seq := rfl
@[simp] theorem State.setRst_pad (r : Bool) : (s.setRst r).pad = s.pad := rfl
@[simp] theorem State.setRst_et (r : Bool) : (s.setRst r).et = s.et := rfl
@[simp] theorem State.setRst_dly (r : Bool) : (s.setRst r).dly = s.dly := rfl
@[simp] theorem State.setRst_dec (r : Bool) : (s.setRst r).dec = s.dec := rfl
@[simp] theorem State.setRst_res (r : Bool) : (s.setRst r).res = s.res := rfl
@[simp] theorem State.setRst_flags (r : Bool) : (s.setRst r).flags = s.flags := rfl
@[simp] theorem State.setRst_err (r : Bool) : (s.setRst r).err = s.err := rfl
@[simp] theorem State.setRst_regs (r : Bool) : (s.setRst r).regs = s.regs := rfl
@[simp] theorem State.setRst_now (r : Bool) : (s.setRst r).now = s.now := rfl
@[simp] theorem State.setRst_bus (r : Bool) : (s.setRst r).bus = s.bus := rfl
@[simp] theorem State.setRst_env (r : Bool) : (s.setRst r).env = s.env := rfl

@[simp] theorem State.setSeq_rst (q : Seq) : (s.setSeq q).rst = s.rst := rfl
@[simp] theorem State.setSeq_cfg (q : Seq) : (s.setSeq q).cfg = s.cfg := rfl
@[simp] theorem State.setSeq_seq (q : Seq) : (s.setSeq q).seq = q := rfl
@[simp] theorem State.setSeq_pad (q : Seq) : (s.setSeq q).pad = s.pad := rfl
@[simp] theorem State.setSeq_et (q : Seq) : (s.setSeq q).et = s.et := rfl
@[simp] theorem State.setSeq_dly (q : Seq) : (s.setSeq q).dly = s.dly := rfl
@[simp] theorem State.setSeq_dec (q : Seq) : (s.setSeq q).dec = s.dec := rfl
@[simp] theorem State.setSeq_res (q : Seq) : (s.setSeq q).res = s.res := rfl
@[simp] theorem State.setSeq_flags (q : Seq) : (s.setSeq q).flags = s.flags := rfl
@[simp] theorem State.setSeq_err (q : Seq) : (s.setSeq q).err = s.err := rfl
@[simp] theorem State.setSeq_regs (q : Seq) : (s.setSeq q).regs = s.regs := rfl
@[simp] theorem State.setSeq_now (q : Seq) : (s.setSeq q).now = s.now := rfl
@[simp] theorem State.setSeq_bus (q : Seq) : (s.setSeq q).bus = s.bus := rfl
@[simp] theorem State.setSeq_env (q : Seq) : (s.setSeq q).env = s.env := rfl

@[simp] theorem State.setPad_rst (p : Pad) : (s.setPad p).rst = s.rst := rfl
@[simp] theorem State.setPad_cfg (p : Pad) : (s.setPad p).cfg = s.cfg := rfl
@[simp] theorem State.setPad_seq (p : Pad) : (s.setPad p).seq = s.seq := rfl
@[simp] theorem State.setPad_pad (p : Pad) : (s.setPad p).pad = p := rfl
@[simp] theorem State.setPad_et (p : Pad) : (s.setPad p).et = s.et := rfl
@[simp] theorem State.setPad_dly (p : Pad) : (s.setPad p).dly = s.dly := rfl
@[simp] theorem State.setPad_dec (p : Pad) : (s.setPad p).dec = s.dec := rfl
@[simp] theorem State.setPad_res (p : Pad) : (s.setPad p).res = s.res := rfl
@[simp] theorem State.setPad_flags (p : Pad) : (s.setPad p).flags = s.flags := rfl
@[simp] theorem State.setPad_err (p : Pad) : (s.setPad p).err = s.err := rfl
@[simp] theorem State.setPad_regs (p : Pad) : (s.setPad p).regs = s.regs := rfl
@[simp] theorem State.setPad_now (p : Pad) : (s.setPad p).now = s.now := rfl
@[simp] theorem State.setPad_bus (p : Pad) : (s.setPad p).bus = s.bus := rfl
@[simp] theorem State.setPad_env (p : Pad) : (s.setPad p).env = s.env := rfl

@[simp] theorem State.setEt_rst (e : EdgeTimer) : (s.setEt e).rst = s.rst := rfl
@[simp] theorem State.setEt_cfg (e : EdgeTimer) : (s.setEt e).cfg = s.cfg := rfl
@[simp] theorem State.setEt_seq (e : EdgeTimer) : (s.setEt e).seq = s.seq := rfl
@[simp] theorem State.setEt_pad (e : EdgeTimer) : (s.setEt e).pad = s.pad := rfl
@[simp] theorem State.setEt_et (e : EdgeTimer) : (s.setEt e).et = e := rfl
@[simp] theorem State.setEt_dly (e : EdgeTimer) : (s.setEt e).dly = s.dly := rfl
@[simp] theorem State.setEt_dec (e : EdgeTimer) : (s.setEt e).dec = s.dec := rfl
@[simp] theorem State.setEt_res (e : EdgeTimer) : (s.setEt e).res = s.res := rfl
@[simp] theorem State.setEt_flags (e : EdgeTimer) : (s.setEt e).flags = s.flags := rfl
@[simp] theorem State.setEt_err (e : EdgeTimer) : (s.setEt e).err = s.err := rfl
@[simp] theorem State.setEt_regs (e : EdgeTimer) : (s.setEt e).regs = s.regs := rfl
@[simp] theorem State.setEt_now (e : EdgeTimer) : (s.setEt e).now = s.now := rfl
@[simp] theorem State.setEt_bus (e : EdgeTimer) : (s.setEt e).bus = s.bus := rfl
@[simp] theorem State.setEt_env (e : EdgeTimer) : (s.setEt e).env = s.env := rfl

@[simp] theorem State.setDly_rst (d : Dur) : (s.setDly d).rst = s.rst := rfl
@[simp] theorem State.setDly_cfg (d : Dur) : (s.setDly d).cfg = s.cfg := rfl
@[simp] theorem State.setDly_seq (d : Dur) : (s.setDly d).seq = s.seq := rfl
@[simp] theorem State.setDly_pad (d : Dur) : (s.setDly d).pad = s.pad := rfl
@[simp] theorem State.setDly_et (d : Dur) : (s.setDly d).et = s.et := rfl
@[simp] theorem State.setDly_dly (d : Dur) : (s.setDly d).dly = d := rfl
@[simp] theorem State.setDly_dec (d : Dur) : (s.setDly d).dec = s.dec := rfl
@[simp] theorem State.setDly_res (d : Dur) : (s.setDly d).res = s.res := rfl
@[simp] theorem State.setDly_flags (d : Dur) : (s.setDly d).flags = s.flags := rfl
@[simp] theorem State.setDly_err (d : Dur) : (s.setDly d).err = s.err := rfl
@[simp] theorem State.setDly_regs (d : Dur) : (s.setDly d).regs = s.regs := rfl
@[simp] theorem State.setDly_now (d : Dur) : (s.setDly d).now = s.now := rfl
@[simp] theorem State.setDly_bus (d : Dur) : (s.setDly d).bus = s.bus := rfl
@[simp] theorem State.setDly_env (d : Dur) : (s.setDly d).env = s.env := rfl

@[simp] theorem State.setDec_rst (d : Decoder) : (s.setDec d).rst = s.rst := rfl
@[simp] theorem State.setDec_cfg (d : Decoder) : (s.setDec d).cfg = s.cfg := rfl
@[simp] theorem State.setDec_seq (d : Decoder) : (s.setDec d).seq = s.seq := rfl
@[simp] theorem State.setDec_pad (d : Decoder) : (s.setDec d).pad = s.pad := rfl
@[simp] theorem State.setDec_et (d : Decoder) : (s.setDec d).et = s.et := rfl
@[simp] theorem State.setDec_dly (d : Decoder) : (s.setDec d).dly = s.dly := rfl
@[simp] theorem State.setDec_dec (d : Decoder) : (s.setDec d).dec = d := rfl
@[simp] theorem State.setDec_res (d : Decoder) : (s.setDec d).res = s.res := rfl
@[simp] theorem State.setDec_flags (d : Decoder) : (s.setDec d).flags = s.flags := rfl
@[simp] theorem State.setDec_err (d : Decoder) : (s.setDec d).err = s.err := rfl
@[simp] theorem State.setDec_regs (d : Decoder) : (s.setDec d).regs = s.regs := rfl
@[simp] theorem State.setDec_now (d : Decoder) : (s.setDec d).now = s.now := rfl
@[simp] theorem State.setDec_bus (d : Decoder) : (s.setDec d).bus = s.bus := rfl
@[simp] theorem State.setDec_env (d : Decoder) : (s.setDec d).env = s.env := rfl

@[simp] theorem State.setRes_rst (r : Results) : (s.setRes r).rst = s.rst := rfl
@[simp] theorem State.setRes_cfg (r : Results) : (s.setRes r).cfg = s.cfg := rfl
@[simp] theorem State.setRes_seq (r : Results) : (s.setRes r).seq = s.seq := rfl
@[simp] theorem State.setRes_pad (r : Results) : (s.setRes r).pad = s.pad := rfl
@[simp] theorem State.setRes_et (r : Results) : (s.setRes r).et = s.et := rfl
@[simp] theorem State.setRes_dly (r : Results) : (s.setRes r).dly = s.dly := rfl
@[simp] theorem State.setRes_dec (r : Results) : (s.setRes r).dec = s.dec := rfl
@[simp] theorem State.setRes_res (r : Results) : (s.setRes r).res = r := rfl
@[simp] theorem State.setRes_flags (r : Results) : (s.setRes r).flags = s.flags := rfl
@[simp] theorem State.setRes_err (r : Results) : (s.setRes r).err = s.err := rfl
@[simp] theorem State.setRes_regs (r : Results) : (s.setRes r).regs = s.regs := rfl
@[simp] theorem State.setRes_now (r : Results) : (s.setRes r).now = s.now := rfl
@[simp] theorem State.setRes_bus (r : Results) : (s.setRes r).bus = s.bus := rfl
@[simp] theorem State.setRes_env (r : Results) : (s.setRes r).env = s.env := rfl

@[simp] theorem State.setFlags_rst (f : Flags) : (s.setFlags f).rst = s.rst := rfl
@[simp] theorem State.setFlags_cfg (f : Flags) : (s.setFlags f).cfg = s.cfg := rfl
@[simp] theorem State.setFlags_seq (f : Flags) : (s.setFlags f).seq = s.seq := rfl
@[simp] theorem State.setFlags_pad (f : Flags) : (s.setFlags f).pad = s.pad := rfl
@[simp] theorem State.setFlags_et (f : Flags) : (s.setFlags f).et = s.et := rfl
@[simp] theorem State.setFlags_dly (f : Flags) : (s.setFlags f).dly = s.dly := rfl
@[simp] theorem State.setFlags_dec (f : Flags) : (s.setFlags f).dec = s.dec := rfl
@[simp] theorem State.setFlags_res (f : Flags) : (s.setFlags f).res = s.res := rfl
@[simp] theorem State.setFlags_flags (f : Flags) : (s.setFlags f).flags = f := rfl
@[simp] theorem State.setFlags_err (f : Flags) : (s.setFlags f).err = s.err := rfl
@[simp] theorem State.setFlags_regs (f : Flags) : (s.setFlags f).regs = s.regs := rfl
@[simp] theorem State.setFlags_now (f : Flags) : (s.setFlags f).now = s.now := rfl
@[simp] theorem State.setFlags_bus (f : Flags) : (s.setFlags f).bus = s.bus := rfl
@[simp] theorem State.setFlags_env (f : Flags) : (s.setFlags f).env = s.env := rfl

@[simp] theorem State.setErr_rst (e : ErrReg) : (s.setErr e).rst = s.rst := rfl
@[simp] theorem State.setErr_cfg (e : ErrReg) : (s.setErr e).cfg = s.cfg := rfl
@[simp] theorem State.setErr_seq (e : ErrReg) : (s.setErr e).seq = s.seq := rfl
@[simp] theorem State.setErr_pad (e : ErrReg) : (s.setErr e).pad = s.pad := rfl
@[simp] theorem State.setErr_et (e : ErrReg) : (s.setErr e).et = s.et := rfl
@[simp] theorem State.setErr_dly (e : ErrReg) : (s.setErr e).dly = s.dly := rfl
@[simp] theorem State.setErr_dec (e : ErrReg) : (s.setErr e).dec = s.dec := rfl
@[simp] theorem State.setErr_res (e : ErrReg) : (s.setErr e).res = s.res := rfl
@[simp] theorem State.setErr_flags (e : ErrReg) : (s.setErr e).flags = s.flags := rfl
@[simp] theorem State.setErr_err (e : ErrReg) : (s.setErr e).err = e := rfl
@[simp] theorem State.setErr_regs (e : ErrReg) : (s.setErr e).regs = s.regs := rfl
@[simp] theorem State.setErr_now (e : ErrReg) : (s.setErr e).now = s.now := rfl
@[simp] theorem State.setErr_bus (e : ErrReg) : (s.setErr e).bus = s.bus := rfl
@[simp] theorem State.setErr_env (e : ErrReg) : (s.setErr e).env = s.env := rfl

@[simp] theorem State.setRegs_rst (r : Regs) : (s.setRegs r).rst = s.rst := rfl
@[simp] theorem State.setRegs_cfg (r : Regs) : (s.setRegs r).cfg = s.cfg := rfl
@[simp] theorem State.setRegs_seq (r : Regs) : (s.setRegs r).seq = s.seq := rfl
@[simp] theorem State.setRegs_pad (r : Regs) : (s.setRegs r).pad = s.pad := rfl
@[simp] theorem State.setRegs_et (r : Regs) : (s.setRegs r).et = s.et := rfl
@[simp] theorem State.setRegs_dly (r : Regs) : (s.setRegs r).dly = s.dly := rfl
@[simp] theorem State.setRegs_dec (r : Regs) : (s.setRegs r).dec = s.dec := rfl
@[simp] theorem State.setRegs_res (r : Regs) : (s.setRegs r).res = s.res := rfl
@[simp] theorem State.setRegs_flags (r : Regs) : (s.setRegs r).flags = s.flags := rfl
@[simp] theorem State.setRegs_err (r : Regs) : (s.setRegs r).err = s.err := rfl
@[simp] theorem State.setRegs_regs (r : Regs) : (s.setRegs r).regs = r := rfl
@[simp] theorem State.setRegs_now (r : Regs) : (s.setRegs r).now = s.now := rfl
@[simp] theorem State.setRegs_bus (r : Regs) : (s.setRegs r).bus = s.bus := rfl
@[simp] theorem State.setRegs_env (r : Regs) : (s.setRegs r).env = s.env := rfl

@[simp] theorem State.setNow_rst (n : Nat) : (s.setNow n).rst = s.rst := rfl
@[simp] theorem State.setNow_cfg (n : Nat) : (s.setNow n).cfg = s.cfg := rfl
@[simp] theorem State.setNow_seq (n : Nat) : (s.setNow n).seq = s.seq := rfl
@[simp] theorem State.setNow_pad (n : Nat) : (s.setNow n).pad = s.pad := rfl
@[simp] theorem State.setNow_et (n : Nat) : (s.setNow n).et = s.et := rfl
@[simp] theorem State.setNow_dly (n : Nat) : (s.setNow n).dly = s.dly := rfl
@[simp] theorem State.setNow_dec (n : Nat) : (s.setNow n).dec = s.dec := rfl
@[simp] theorem State.setNow_res (n : Nat) : (s.setNow n).res = s.res := rfl
@[simp] theorem State.setNow_flags (n : Nat) : (s.setNow n).flags = s.flags := rfl
@[simp] theorem State.setNow_err (n : Nat) : (s.setNow n).err = s.err := rfl
@[simp] theorem State.setNow_regs (n : Nat) : (s.setNow n).regs = s.regs := rfl
@[simp] theorem State.setNow_now (n : Nat) : (s.setNow n).now = n := rfl
@[simp] theorem State.setNow_bus (n : Nat) : (s.setNow n).bus = s.bus := rfl
@[simp] theorem State.setNow_env (n : Nat) : (s.setNow n).env = s.env := rfl

@[simp] theorem State.setBus_rst (b : Bus) : (s.setBus b).rst = s.rst := rfl
@[simp] theorem State.setBus_cfg (b : Bus) : (s.setBus b).cfg = s.cfg := rfl
@[simp] theorem State.setBus_seq (b : Bus) : (s.setBus b).seq = s.seq := rfl
@[simp] theorem State.setBus_pad (b : Bus) : (s.setBus b).pad = s.pad := rfl
@[simp] theorem State.setBus_et (b : Bus) : (s.setBus b).et = s.et := rfl
@[simp] theorem State.setBus_dly (b : Bus) : (s.setBus b).dly = s.dly := rfl
@[simp] theorem State.setBus_dec (b : Bus) : (s.setBus b).dec = s.dec := rfl
@[simp] theorem State.setBus_res (b : Bus) : (s.setBus b).res = s.res := rfl
@[simp] theorem State.setBus_flags (b : Bus) : (s.setBus b).flags = s.flags := rfl
@[simp] theorem State.setBus_err (b : Bus) : (s.setBus b).err = s.err := rfl
@[simp] theorem State.setBus_regs (b : Bus) : (s.setBus b).regs = s.regs := rfl
@[simp] theorem State.setBus_now (b : Bus) : (s.setBus b).now = s.now := rfl
@[simp] theorem State.setBus_bus (b : Bus) : (s.setBus b).bus = b := rfl
@[simp] theorem State.setBus_env (b : Bus) : (s.setBus b).env = s.env := rfl

@[simp] theorem State.setEnv_rst (e : Env) : (s.setEnv e).rst = s.rst := rfl
@[simp] theorem State.setEnv_cfg (e : Env) : (s.setEnv e).cfg = s.cfg := rfl
@[simp] theorem State.setEnv_seq (e : Env) : (s.setEnv e).seq = s.seq := rfl
@[simp] theorem State.setEnv_pad (e : Env) : (s.setEnv e).pad = s.pad := rfl
@[simp] theorem State.setEnv_et (e : Env) : (s.setEnv e).et = s.et := rfl
@[simp] theorem State.setEnv_dly (e : Env) : (s.setEnv e).dly = s.dly := rfl
@[simp] theorem State.setEnv_dec (e : Env) : (s.setEnv e).dec = s.dec := rfl
@[simp] theorem State.setEnv_res (e : Env) : (s.setEnv e).res = s.res := rfl
@[simp] theorem State.setEnv_flags (e : Env) : (s.setEnv e).flags = s.flags := rfl
@[simp] theorem State.setEnv_err (e : Env) : (s.setEnv e).err = s.err := rfl
@[simp] theorem State.setEnv_regs (e : Env) : (s.setEnv e).regs = s.regs := rfl
@[simp] theorem State.setEnv_now (e : Env) : (s.setEnv e).now = s.now := rfl
@[simp] theorem State.setEnv_bus (e : Env) : (s.setEnv e).bus = s.bus := rfl
@[simp] theorem State.setEnv_env (e : Env) : (s.setEnv e).env = e := rfl

end Sys2Proof.Machine
end

