-- ==== Sys2Proof/Laws/Ops.lean ====
section
/-! SUPPORT. One equation per shared operation: everything it writes, on the fields of the state. A proof rewrites with these and
never unfolds the operation. -/

namespace Sys2Proof.Machine

variable (s : State)

/-! Time and line. -/

theorem passTime_eq (n : Nat) :
    passTime n s = { s with now := s.now + n, env := { s.env with clock := s.env.clock + n } } := rfl

theorem driveLow_eq :
    driveLow s = { s with pad := Pad.L, env := { s.env with drives := (s.env.clock, Pad.L) :: s.env.drives } } := rfl

theorem driveHigh_eq :
    driveHigh s = { s with pad := Pad.H, env := { s.env with drives := (s.env.clock, Pad.H) :: s.env.drives } } := rfl

theorem release_eq :
    release s = { s with pad := Pad.Z, env := { s.env with drives := (s.env.clock, Pad.Z) :: s.env.drives } } := rfl

/-! Flags, acceptance, errors. -/

theorem beginWindow_eq : beginWindow s = { s with flags := { s.flags with atomic := true } } := rfl

theorem endWindow_eq : endWindow s = { s with flags := { s.flags with atomic := false } } := rfl

theorem markBusy_eq : markBusy s = { s with flags := { s.flags with busy := true } } := rfl

theorem complete_eq : complete s = { s with flags := { s.flags with busy := false, done := true } } := rfl

theorem overrun_eq : overrun s = { s with flags := { s.flags with ovr := true } } := rfl

theorem raiseErr_eq (code : ErrCode) (info : BitVec 6) : raiseErr code info s = { s with err := ⟨code, info⟩ } := rfl

theorem accept_eq :
    accept s =
      { s with
        flags := { s.flags with done := false }
        err := ErrReg.clear
        et := { s.et with elapsed := 0#16 }
        res := Results.clear } := rfl

/-- Everything `finish()` writes: the line high, the sequencer idle, `BUSY` and `DONE` (R111), and the model's own note of
the instant. -/
theorem finish_eq :
    finish s =
      { s with
        pad := Pad.H
        seq := ⟨.idle, false, 0#6⟩
        flags := { s.flags with busy := false, done := true }
        env := { s.env with drives := (s.env.clock, Pad.H) :: s.env.drives, lastEnd := s.env.clock } } := rfl

/-- Everything `fail(code, info)` writes: the window closed, the error, and what `finish()` writes (R110). -/
theorem fail_eq (code : ErrCode) (info : BitVec 6) :
    fail code info s =
      { s with
        pad := Pad.H
        seq := ⟨.idle, false, 0#6⟩
        flags := { s.flags with atomic := false, busy := false, done := true }
        err := ⟨code, info⟩
        env := { s.env with drives := (s.env.clock, Pad.H) :: s.env.drives, lastEnd := s.env.clock } } := rfl

theorem illegalCommand_eq :
    illegalCommand s =
      { s with
        flags := { s.flags with busy := false, done := true }
        err := ⟨.illegalCommand, 0#6⟩
        et := { s.et with elapsed := 0#16 }
        res := Results.clear } := rfl

/-- A write has no effect in reset, is dropped while busy, and has its effect otherwise. -/
theorem writeGate_reset (body : State → State) (hr : s.rst = true) : writeGate body s = s := by
  simp [writeGate, hr]

theorem writeGate_busy (body : State → State) (hr : s.rst = false) (h : s.flags.busy = true) :
    writeGate body s = overrun s := by
  simp [writeGate, hr, h]

theorem writeGate_open (body : State → State) (hr : s.rst = false) (h : s.flags.busy = false) :
    writeGate body s = body s := by
  simp [writeGate, hr, h]

theorem command_accepted (body : State → State) (hr : s.rst = false) (h : s.flags.busy = false) :
    command body s = body (accept s) := writeGate_open s _ hr h

/-! Reset. -/

/-- Everything an asserted `rst` leaves: the reset state, with what is outside the block (R148, log 6). -/
theorem assertReset_eq :
    assertReset s =
      { State.initial s.cfg with
        rst := true
        bus := s.bus
        env := { s.env with drives := (s.env.clock, Pad.Z) :: s.env.drives, lastEnd := s.env.clock } } := rfl

theorem releaseReset_eq :
    releaseReset s = { s with rst := false, env := { s.env with lastEnd := s.env.clock } } := rfl

theorem holdReset_eq : holdReset s = { s with env := { s.env with clock := s.env.clock + 1 } } := rfl

/-- Driving `rst` to the level it has changes nothing. -/
theorem driveRst_same : driveRst s.rst s = s := by simp [driveRst]

theorem driveRst_assert (hr : s.rst = false) : driveRst true s = assertReset s := by simp [driveRst, hr]

theorem driveRst_release (hr : s.rst = true) : driveRst false s = releaseReset s := by simp [driveRst, hr]

/-! The Edge Timer. -/

theorem armTimer_eq (b : Dur) (l : Bool) :
    armTimer b l s = { s with et := ⟨0#16, b, l, decide (s.cfg.pollUs ≤ b.toNat), 0#3⟩ } := rfl

theorem countPoll_eq : countPoll s = { s with et := { s.et with pollCnt := s.et.pollCnt + 1#3 } } := rfl

theorem reachSample_eq :
    reachSample s =
      { s with et := { s.et with elapsed := s.et.elapsed + BitVec.ofNat 16 s.cfg.pollUs, pollCnt := 0#3 } } := rfl

theorem stopTimer_eq : stopTimer s = { s with et := { s.et with run := false } } := rfl

/-- A wait whose budget holds a sample starts its poll loop. -/
theorem startAwait_fits (b : Dur) (l : Bool) (f : State → State) (h : s.cfg.pollUs ≤ b.toNat) :
    startAwait b l f s = { s with et := ⟨0#16, b, l, true, 0#3⟩ } := by
  simp [startAwait, armTimer, State.setEt, h]

/-- A wait whose budget holds no sample times out at once (R83). -/
theorem startAwait_short (b : Dur) (l : Bool) (f : State → State) (h : ¬ s.cfg.pollUs ≤ b.toNat) :
    startAwait b l f s = f { s with et := ⟨0#16, b, l, false, 0#3⟩ } := by
  simp [startAwait, armTimer, State.setEt, h]

/-- The four things one microsecond of a poll loop can do (R73, R79). -/
theorem pollTick_cases (onOk onTimeout : State → State) :
    (s.et.pollCnt.toNat + 1 < s.cfg.pollUs ∧ pollTick onOk onTimeout s = countPoll s) ∨
    (¬ s.et.pollCnt.toNat + 1 < s.cfg.pollUs ∧ s.line = s.et.level ∧
      pollTick onOk onTimeout s = onOk (stopTimer (reachSample s))) ∨
    (¬ s.et.pollCnt.toNat + 1 < s.cfg.pollUs ∧ s.line ≠ s.et.level ∧ sampleFits (reachSample s) = true ∧
      pollTick onOk onTimeout s = reachSample s) ∨
    (¬ s.et.pollCnt.toNat + 1 < s.cfg.pollUs ∧ s.line ≠ s.et.level ∧ sampleFits (reachSample s) = false ∧
      pollTick onOk onTimeout s = onTimeout (stopTimer (reachSample s))) := by
  have hline : (reachSample s).line = s.line := rfl
  have hlevel : (reachSample s).et.level = s.et.level := rfl
  by_cases hc : s.et.pollCnt.toNat + 1 < s.cfg.pollUs
  · exact .inl ⟨hc, by simp [pollTick, hc]⟩
  · by_cases hl : s.line = s.et.level
    · exact .inr (.inl ⟨hc, hl, by simp [pollTick, hc, hline, hlevel, hl]⟩)
    · cases hf : sampleFits (reachSample s)
      · exact .inr (.inr (.inr ⟨hc, hl, rfl, by simp [pollTick, hc, hline, hlevel, hl, hf]⟩))
      · exact .inr (.inr (.inl ⟨hc, hl, rfl, by simp [pollTick, hc, hline, hlevel, hl, hf]⟩))

/-! The tick. -/

theorem tick_reset (hr : s.rst = true) : tick s = .next (holdReset s) := by
  simp [tick, hr]

theorem tick_idle (hr : s.rst = false) (h : s.flags.busy = false) : tick s = .next (passTime 1 s) := by
  simp [tick, passTime, hr, h]

theorem tick_busy (hr : s.rst = false) (h : s.flags.busy = true) : tick s = busyTick (passTime 1 s) := by
  simp [tick, passTime, hr, h]

theorem runTicks_zero : runTicks 0 s = .next s := rfl

theorem runTicks_succ {t : State} (k : Nat) (h : tick s = .next t) : runTicks (k + 1) s = runTicks k t := by
  simp [runTicks, h]

/-- Runs of ticks compose. -/
theorem runTicks_add (j k : Nat) {s t : State} (h : runTicks j s = .next t) : runTicks (j + k) s = runTicks k t := by
  induction j generalizing s with
  | zero =>
    rw [runTicks_zero] at h
    cases h
    rw [Nat.zero_add]
  | succ j ih =>
    rw [Nat.succ_add]
    cases ht : tick s with
    | next u =>
      rw [runTicks_succ s j ht] at h
      rw [runTicks_succ s (j + k) ht]
      exact ih h
    | fault f => simp [runTicks, ht] at h
    | refused r => simp [runTicks, ht] at h

/-! The host's side. -/

/-- `RegWrite` of a register that is not `CMD`. -/
theorem hostWrite_register (r : HostReg) (v : Word) (hr : r ≠ .cmd) :
    hostWrite r v s = .next (writeGate (writeReg r v) s) := by
  cases r <;> first | rfl | exact absurd rfl hr

theorem hostRead_eq (r : HostReg) :
    hostRead r s = { s with bus := { s.bus with rdata := readReg r s, seen := noteRead r s } } := rfl

/-- Before a command has completed a read is not recorded. -/
theorem noteRead_notDone (r : HostReg) (h : s.flags.done = false) : noteRead r s = s.bus.seen := by
  simp [noteRead, h]

/-- A write to `CMD` touches the record of reads alone, any other write not even that. -/
theorem noteWrite_cmd : noteWrite .cmd s = { s with bus := { s.bus with seen := Seen.nothing } } := rfl

theorem noteWrite_other (r : HostReg) (h : r ≠ .cmd) : noteWrite r s = s := by
  cases r <;> first | rfl | exact absurd rfl h

theorem popAction_eq (rest : List HostAction) : popAction rest s = { s with bus := { s.bus with script := rest } } := rfl

theorem nextEvent_empty (h : s.bus.script = []) : nextEvent s = tick s := by
  simp [nextEvent, h]

theorem nextEvent_action (a : HostAction) (rest : List HostAction) (h : s.bus.script = a :: rest) :
    nextEvent s = hostStep a rest s := by
  simp [nextEvent, h]

end Sys2Proof.Machine
end

