-- ==== Sys2Proof/Laws/Sequencer.lean ====
section
/-! SUPPORT. What the acceptance of each command, each row of R115 and a tick do, one lemma each, and what they all leave alone. -/

namespace Sys2Proof.Machine

variable (s : State)

/-! Acceptance. -/

/-- A command word that decodes to a line command, accepted: what DRVL, DRVH and REL share. -/
theorem complete_drivePad_accept (p : Pad) :
    complete (drivePad p (accept s)) =
      { s with
        pad := p, res := Results.clear, err := ErrReg.clear
        et := { s.et with elapsed := 0#16 }
        flags := { s.flags with busy := false, done := true }
        env := { s.env with drives := (s.env.clock, p) :: s.env.drives } } := rfl

/-- AWAIT with a budget of at least one polling interval starts its poll loop. -/
theorem beginAwait_fits (level : Bool) (budget : Nat) (h : s.cfg.pollUs ≤ (BitVec.ofNat 16 budget).toNat) :
    beginAwait level budget s =
      { s with flags := { s.flags with busy := true }, et := ⟨0#16, BitVec.ofNat 16 budget, level, true, 0#3⟩ } := by
  rw [beginAwait, startAwait_fits (markBusy s) _ _ _ h, markBusy_eq]

/-- AWAIT with a budget below the polling interval is over at once (R83). -/
theorem beginAwait_short (level : Bool) (budget : Nat) (h : ¬ s.cfg.pollUs ≤ (BitVec.ofNat 16 budget).toNat) :
    beginAwait level budget s =
      { s with
        flags := { s.flags with busy := false, done := true }
        err := ⟨.timeoutError, 0#6⟩
        et := ⟨0#16, BitVec.ofNat 16 budget, level, false, 0#3⟩ } := by
  rw [beginAwait, startAwait_short (markBusy s) _ _ _ h, awaitTimeout, markBusy_eq, complete_eq, raiseErr_eq]

/-- ACQ with a reading requested opens the window and drives low. -/
theorem beginAcq_wanted (wantH wantT : Bool) (h : (wantH || wantT) = true) :
    beginAcq wantH wantT s =
      { s with
        dec := { s.dec with wantH := wantH, wantT := wantT, bitBuf := 0#40 }
        flags := { s.flags with busy := true, atomic := true }
        seq := ⟨.startPulse, false, 0#6⟩
        dly := BitVec.ofNat 16 s.cfg.startLowUs
        pad := Pad.L
        env := { s.env with drives := (s.env.clock, Pad.L) :: s.env.drives } } := by
  simp [beginAcq, h, driveLow_eq, beginWindow_eq, markBusy_eq, State.setDec, State.setSeq, State.setDly]

/-- ACQ with nothing requested is over at once (R95). -/
theorem beginAcq_none :
    beginAcq false false s =
      { s with
        dec := { s.dec with wantH := false, wantT := false }
        err := ⟨.invalidArgument, 0#6⟩
        flags := { s.flags with busy := false, done := true } } := by
  simp [beginAcq, complete_eq, raiseErr_eq, State.setDec]

theorem exec_drvl (hr : s.rst = false) (h : s.flags.busy = false) :
    exec .drvl s = .next (complete (drivePad Pad.L (accept s))) := by
  simp only [exec, execDrvl, command_accepted s _ hr h, driveLow]

theorem exec_drvh (hr : s.rst = false) (h : s.flags.busy = false) :
    exec .drvh s = .next (complete (drivePad Pad.H (accept s))) := by
  simp only [exec, execDrvh, command_accepted s _ hr h, driveHigh]

theorem exec_rel (hr : s.rst = false) (h : s.flags.busy = false) :
    exec .rel s = .next (complete (drivePad Pad.Z (accept s))) := by
  simp only [exec, execRel, command_accepted s _ hr h, release]

theorem exec_await (hr : s.rst = false) (h : s.flags.busy = false) (level : Bool) (budget : Nat) :
    exec (.await level budget) s = .next (beginAwait level budget (accept s)) := by
  simp only [exec, execAwait, command_accepted s _ hr h]

theorem exec_acq (hr : s.rst = false) (h : s.flags.busy = false) (wantH wantT : Bool) :
    exec (.acq wantH wantT) s = .next (beginAcq wantH wantT (accept s)) := by
  simp only [exec, execAcq, command_accepted s _ hr h]

/-- A command met while `BUSY = 1` is dropped, whatever it is. -/
theorem exec_busy (hr : s.rst = false) (h : s.flags.busy = true) (i : Instr) : exec i s = .next (overrun s) := by
  cases i <;> simp only [exec, execDrvl, execDrvh, execRel, execAwait, execAcq, command, writeGate_busy s _ hr h]

/-- A command met while `rst` is asserted has no effect, whatever it is (R148). -/
theorem exec_reset (hr : s.rst = true) (i : Instr) : exec i s = .next s := by
  cases i <;> simp only [exec, execDrvl, execDrvh, execRel, execAwait, execAcq, command, writeGate_reset s _ hr]

/-! The rows of R115. -/

theorem startStage_fits (q : Seq) (b : Dur) (l : Bool) (h : s.cfg.pollUs ≤ b.toNat) :
    startStage q b l s = { s with seq := q, et := ⟨0#16, b, l, true, 0#3⟩ } := by
  rw [startStage, startAwait_fits (s.setSeq q) _ _ _ h, State.setSeq]

theorem startStage_short (q : Seq) (b : Dur) (l : Bool) (h : ¬ s.cfg.pollUs ≤ b.toNat) :
    startStage q b l s = waitTimedOut { s with seq := q, et := ⟨0#16, b, l, false, 0#3⟩ } := by
  rw [startStage, startAwait_short (s.setSeq q) _ _ _ h, State.setSeq]

theorem waitTimedOut_idle (h : s.seq.stage = .idle) : waitTimedOut s = awaitTimeout s := by
  unfold waitTimedOut; rw [h]

theorem waitTimedOut_ack (h : s.seq.stage = .awaitSensorAck) : waitTimedOut s = fail .handshakeTimeout 2#6 s := by
  unfold waitTimedOut; rw [h]

theorem waitTimedOut_ready (h : s.seq.stage = .awaitSensorReady) : waitTimedOut s = fail .handshakeTimeout 3#6 s := by
  unfold waitTimedOut; rw [h]

theorem waitTimedOut_data (h : s.seq.stage = .awaitDataStart) : waitTimedOut s = fail .handshakeTimeout 4#6 s := by
  unfold waitTimedOut; rw [h]

theorem waitTimedOut_bit (h : s.seq.stage = .readBit) : waitTimedOut s = fail .bitTimeout s.seq.bitIdx s := by
  unfold waitTimedOut; rw [h]

theorem waitMet_idle (h : s.seq.stage = .idle) : waitMet s = complete s := by
  unfold waitMet; rw [h]; rfl

theorem waitMet_ack (h : s.seq.stage = .awaitSensorAck) : waitMet s = startReady s := by
  unfold waitMet; rw [h]

theorem waitMet_ready (h : s.seq.stage = .awaitSensorReady) : waitMet s = startData s := by
  unfold waitMet; rw [h]

theorem waitMet_data (h : s.seq.stage = .awaitDataStart) : waitMet s = startLowPhase 0#6 s := by
  unfold waitMet; rw [h]

theorem waitMet_low (h : s.seq.stage = .readBit) (hs : s.seq.sub = false) : waitMet s = lowPhaseDone s := by
  simp only [waitMet, h, hs, if_neg, Bool.false_eq_true, not_false_eq_true]

theorem waitMet_high (h : s.seq.stage = .readBit) (hs : s.seq.sub = true) : waitMet s = highPhaseDone s := by
  simp only [waitMet, h, hs, if_pos]

theorem highPhaseDone_next (h : s.seq.bitIdx.toNat < 39) :
    highPhaseDone s =
      startLowPhase (s.seq.bitIdx + 1#6)
        { s with
          dec :=
            { s.dec with
              highDur := s.et.elapsed
              bitBuf := writeBit s.dec.bitBuf s.seq.bitIdx.toNat (decideBit s.dec.lowDur s.et.elapsed) } } := by
  simp only [highPhaseDone, h, if_pos, State.setDec]

theorem highPhaseDone_last (h : ¬ s.seq.bitIdx.toNat < 39) :
    highPhaseDone s =
      endBits
        { s with
          dec :=
            { s.dec with
              highDur := s.et.elapsed
              bitBuf := writeBit s.dec.bitBuf s.seq.bitIdx.toNat (decideBit s.dec.lowDur s.et.elapsed) } } := by
  simp only [highPhaseDone, h, if_neg, not_false_eq_true, State.setDec]

/-- Done: everything it writes (R106, R111). -/
theorem commit_eq :
    commit s =
      { s with
        res := deliver (pack s.dec.bitBuf) s.dec
        pad := Pad.H
        seq := ⟨.idle, false, 0#6⟩
        flags := { s.flags with busy := false, done := true }
        env := { s.env with drives := (s.env.clock, Pad.H) :: s.env.drives, lastEnd := s.env.clock } } := by
  rw [commit, finish_eq, State.setRes]

theorem checkFrame_valid (h : (pack s.dec.bitBuf).valid = true) :
    checkFrame s = commit { s with seq := ⟨.done, false, 0#6⟩ } := by
  rw [checkFrame, if_pos h, State.setSeq]

theorem checkFrame_invalid (h : ¬ (pack s.dec.bitBuf).valid = true) :
    checkFrame s = fail .checksumMismatch 0#6 s := by
  rw [checkFrame, if_neg h]

theorem endBits_eq :
    endBits s =
      checkFrame { s with flags := { s.flags with atomic := false }, seq := ⟨.checksum, false, 0#6⟩ } := by
  rw [endBits, endWindow_eq, State.setSeq]

/-- The last bit with a sound checksum: the window closes, the frame is delivered (R105, R106). -/
theorem endBits_valid (h : (pack s.dec.bitBuf).valid = true) :
    endBits s =
      { s with
        res := deliver (pack s.dec.bitBuf) s.dec
        pad := Pad.H
        seq := ⟨.idle, false, 0#6⟩
        flags := { s.flags with atomic := false, busy := false, done := true }
        env := { s.env with drives := (s.env.clock, Pad.H) :: s.env.drives, lastEnd := s.env.clock } } := by
  rw [endBits_eq, checkFrame_valid { s with flags := { s.flags with atomic := false }, seq := ⟨.checksum, false, 0#6⟩ } h,
    commit_eq]

/-- The last bit with a wrong checksum (R105, R129). -/
theorem endBits_invalid (h : ¬ (pack s.dec.bitBuf).valid = true) :
    endBits s =
      { s with
        err := ⟨.checksumMismatch, 0#6⟩
        pad := Pad.H
        seq := ⟨.idle, false, 0#6⟩
        flags := { s.flags with atomic := false, busy := false, done := true }
        env := { s.env with drives := (s.env.clock, Pad.H) :: s.env.drives, lastEnd := s.env.clock } } := by
  rw [endBits_eq, checkFrame_invalid { s with flags := { s.flags with atomic := false }, seq := ⟨.checksum, false, 0#6⟩ } h,
    fail_eq]

/-! The start pulse. -/

theorem endStartHigh_eq :
    endStartHigh s =
      startStage ⟨.awaitSensorAck, false, 0#6⟩ s.regs.tAck false
        { s with pad := Pad.Z, env := { s.env with drives := (s.env.clock, Pad.Z) :: s.env.drives } } := by
  rw [endStartHigh, release_eq, startAck]

/-- The low half ends, and a high half follows (R97). -/
theorem endStartLow_high (h : BitVec.ofNat 16 s.cfg.startHighUs ≠ 0#16) :
    endStartLow s =
      { s with
        pad := Pad.H
        env := { s.env with drives := (s.env.clock, Pad.H) :: s.env.drives }
        seq := ⟨.startPulse, true, 0#6⟩
        dly := BitVec.ofNat 16 s.cfg.startHighUs } := by
  simp only [endStartLow, driveHigh_eq, State.setSeq, State.setDly, h, if_neg, not_false_eq_true]

/-- The low half ends, and the release follows at once (R97). -/
theorem endStartLow_none (h : BitVec.ofNat 16 s.cfg.startHighUs = 0#16) :
    endStartLow s =
      endStartHigh
        { s with
          pad := Pad.H
          env := { s.env with drives := (s.env.clock, Pad.H) :: s.env.drives }
          seq := ⟨.startPulse, true, 0#6⟩
          dly := 0#16 } := by
  simp only [endStartLow, driveHigh_eq, State.setSeq, State.setDly, h, if_pos]

/-- The three things a microsecond of the start pulse can do (R97). -/
theorem startPulseTick_cases :
    (s.dly - 1#16 ≠ 0#16 ∧ startPulseTick s = { s with dly := s.dly - 1#16 }) ∨
    (s.dly - 1#16 = 0#16 ∧ s.seq.sub = true ∧ startPulseTick s = endStartHigh { s with dly := 0#16 }) ∨
    (s.dly - 1#16 = 0#16 ∧ s.seq.sub = false ∧ startPulseTick s = endStartLow { s with dly := 0#16 }) := by
  by_cases h : s.dly - 1#16 = 0#16
  · cases hs : s.seq.sub <;> simp [startPulseTick, State.setDly, h, hs]
  · simp [startPulseTick, State.setDly, h]

/-! The operands. -/

/-- `writeBit` sets the bit it names, if there is one. -/
theorem writeBit_self (buf : BitVec 40) (i : Nat) (b : Bool) (h : i < 40) : (writeBit buf i b).getLsbD i = b := by
  cases b <;> simp [writeBit, h]

/-- `writeBit` leaves every other bit. -/
theorem writeBit_other (buf : BitVec 40) (i j : Nat) (b : Bool) (h : j ≠ i) :
    (writeBit buf i b).getLsbD j = buf.getLsbD j := by
  by_cases hj : j < 40
  · by_cases hij : j < i
    · simp [writeBit, hj, hij]
    · obtain ⟨d, hd⟩ : ∃ d, j - i = d + 1 := ⟨j - i - 1, by omega⟩
      simp [writeBit, hj, hij, hd]
  · simp [BitVec.getLsbD_of_ge _ _ (Nat.le_of_not_lt hj)]

/-- A frame is valid exactly when byte 4 is the sum of the others modulo 256 (R105). -/
theorem Frame.valid_iff (f : Frame) :
    f.valid = true ↔ f.b4.toNat = (f.b0.toNat + f.b1.toNat + f.b2.toNat + f.b3.toNat) % 256 := by
  simp [Frame.valid, Frame.sum, ← BitVec.toNat_inj]

/-! A tick. -/

/-- A microsecond of a running wait, in any stage that waits. -/
theorem tick_wait (ht : s.rst = false) (hb : s.flags.busy = true) (hr : s.et.run = true) (h1 : s.seq.stage ≠ .startPulse)
    (h2 : s.seq.stage ≠ .checksum) (h3 : s.seq.stage ≠ .done) :
    tick s = .next (pollTick waitMet waitTimedOut (passTime 1 s)) := by
  rw [tick_busy s ht hb]
  have hr' : (passTime 1 s).et.run = true := hr
  unfold busyTick
  split <;> rename_i hg <;> change s.seq.stage = _ at hg <;>
    first
      | exact absurd hg h1
      | exact absurd hg h2
      | exact absurd hg h3
      | simp only [waitTick, hr', if_pos]

/-- A microsecond of StartPulse. -/
theorem tick_pulse (ht : s.rst = false) (hb : s.flags.busy = true) (hg : s.seq.stage = .startPulse) (hd : s.dly ≠ 0#16) :
    tick s = .next (startPulseTick (passTime 1 s)) := by
  rw [tick_busy s ht hb]
  unfold busyTick
  rw [show (passTime 1 s).seq.stage = .startPulse from hg]
  exact if_neg hd

/-! What no command and no tick ever touches. -/

/-- `t` has the parameters, the level of `rst`, the host's registers, `OVR`, the bus, the stimulus and the time of `s`. -/
structure Keeps (s t : State) : Prop where
  cfg : t.cfg = s.cfg
  rst : t.rst = s.rst
  regs : t.regs = s.regs
  ovr : t.flags.ovr = s.flags.ovr
  bus : t.bus = s.bus
  stim : t.env.stim = s.env.stim
  now : t.now = s.now
  clock : t.env.clock = s.env.clock

theorem Keeps.refl : Keeps s s := ⟨rfl, rfl, rfl, rfl, rfl, rfl, rfl, rfl⟩

theorem Keeps.trans {s t u : State} (h : Keeps s t) (k : Keeps t u) : Keeps s u :=
  ⟨k.cfg.trans h.cfg, k.rst.trans h.rst, k.regs.trans h.regs, k.ovr.trans h.ovr, k.bus.trans h.bus,
    k.stim.trans h.stim, k.now.trans h.now, k.clock.trans h.clock⟩

theorem Keeps.after {s t u : State} (k : Keeps t u) (h : Keeps s t) : Keeps s u := h.trans k

theorem waitTimedOut_keeps : Keeps s (waitTimedOut s) := by
  unfold waitTimedOut
  split <;>
    (try simp only [awaitTimeout, complete_eq, raiseErr_eq, fail_eq]) <;>
    exact ⟨rfl, rfl, rfl, rfl, rfl, rfl, rfl, rfl⟩

theorem startStage_keeps (q : Seq) (b : Dur) (l : Bool) : Keeps s (startStage q b l s) := by
  by_cases h : s.cfg.pollUs ≤ b.toNat
  · rw [startStage_fits s q b l h]
    exact ⟨rfl, rfl, rfl, rfl, rfl, rfl, rfl, rfl⟩
  · rw [startStage_short s q b l h]
    exact (waitTimedOut_keeps { s with seq := q, et := ⟨0#16, b, l, false, 0#3⟩ }).after
      ⟨rfl, rfl, rfl, rfl, rfl, rfl, rfl, rfl⟩

theorem endBits_keeps : Keeps s (endBits s) := by
  by_cases h : (pack s.dec.bitBuf).valid = true
  · rw [endBits_valid s h]
    exact ⟨rfl, rfl, rfl, rfl, rfl, rfl, rfl, rfl⟩
  · rw [endBits_invalid s h]
    exact ⟨rfl, rfl, rfl, rfl, rfl, rfl, rfl, rfl⟩

theorem setDec_keeps (d : Decoder) : Keeps s (s.setDec d) := ⟨rfl, rfl, rfl, rfl, rfl, rfl, rfl, rfl⟩

theorem waitMet_keeps : Keeps s (waitMet s) := by
  unfold waitMet
  split
  · exact ⟨rfl, rfl, rfl, rfl, rfl, rfl, rfl, rfl⟩
  · exact startStage_keeps _ _ _ _
  · exact startStage_keeps _ _ _ _
  · exact startStage_keeps _ _ _ _
  · split
    · unfold highPhaseDone
      dsimp only
      split
      · exact (setDec_keeps s _).trans (startStage_keeps _ _ _ _)
      · exact (setDec_keeps s _).trans (endBits_keeps _)
    · exact (setDec_keeps s _).trans (startStage_keeps _ _ _ _)
  · exact Keeps.refl s
  · exact Keeps.refl s
  · exact Keeps.refl s

theorem pollTick_keeps : Keeps s (pollTick waitMet waitTimedOut s) := by
  have hr : Keeps s (stopTimer (reachSample s)) := ⟨rfl, rfl, rfl, rfl, rfl, rfl, rfl, rfl⟩
  rcases pollTick_cases s waitMet waitTimedOut with ⟨_, e⟩ | ⟨_, _, e⟩ | ⟨_, _, _, e⟩ | ⟨_, _, _, e⟩ <;> rw [e]
  · exact ⟨rfl, rfl, rfl, rfl, rfl, rfl, rfl, rfl⟩
  · exact hr.trans (waitMet_keeps _)
  · exact ⟨rfl, rfl, rfl, rfl, rfl, rfl, rfl, rfl⟩
  · exact hr.trans (waitTimedOut_keeps _)

theorem endStartHigh_keeps : Keeps s (endStartHigh s) := by
  rw [endStartHigh_eq]
  exact (startStage_keeps _ _ _ _).after ⟨rfl, rfl, rfl, rfl, rfl, rfl, rfl, rfl⟩

theorem startPulseTick_keeps : Keeps s (startPulseTick s) := by
  rcases startPulseTick_cases s with ⟨_, e⟩ | ⟨_, _, e⟩ | ⟨_, _, e⟩ <;> rw [e]
  · exact ⟨rfl, rfl, rfl, rfl, rfl, rfl, rfl, rfl⟩
  · exact (endStartHigh_keeps _).after ⟨rfl, rfl, rfl, rfl, rfl, rfl, rfl, rfl⟩
  · by_cases h : BitVec.ofNat 16 s.cfg.startHighUs = 0#16
    · rw [endStartLow_none { s with dly := 0#16 } h]
      exact (endStartHigh_keeps _).after ⟨rfl, rfl, rfl, rfl, rfl, rfl, rfl, rfl⟩
    · rw [endStartLow_high { s with dly := 0#16 } h]
      exact ⟨rfl, rfl, rfl, rfl, rfl, rfl, rfl, rfl⟩

theorem commit_keeps : Keeps s (commit s) := by
  rw [commit_eq]
  exact ⟨rfl, rfl, rfl, rfl, rfl, rfl, rfl, rfl⟩

theorem checkFrame_keeps : Keeps s (checkFrame s) := by
  by_cases h : (pack s.dec.bitBuf).valid = true
  · rw [checkFrame_valid s h]
    exact (commit_keeps _).after ⟨rfl, rfl, rfl, rfl, rfl, rfl, rfl, rfl⟩
  · rw [checkFrame_invalid s h, fail_eq]
    exact ⟨rfl, rfl, rfl, rfl, rfl, rfl, rfl, rfl⟩

/-- A tick that goes on lets one microsecond pass and keeps the parameters, the host's registers, `OVR`, the bus and the
stimulus; `rst` is released. -/
theorem tick_keeps {s t : State} (hr : s.rst = false) (h : tick s = .next t) : Keeps (passTime 1 s) t := by
  cases hb : s.flags.busy
  · rw [tick_idle s hr hb] at h
    cases h
    exact Keeps.refl _
  · rw [tick_busy s hr hb] at h
    unfold busyTick at h
    have hw : ∀ u v : State, waitTick u = .next v → Keeps u v := fun u v hv => by
      unfold waitTick at hv
      split at hv
      · cases hv; exact pollTick_keeps u
      · cases hv
    split at h
    · exact hw _ _ h
    · split at h
      · cases h
      · cases h; exact startPulseTick_keeps _
    · exact hw _ _ h
    · exact hw _ _ h
    · exact hw _ _ h
    · exact hw _ _ h
    · cases h; exact checkFrame_keeps _
    · cases h; exact commit_keeps _

/-- A command that is accepted takes no time and keeps the same. -/
theorem exec_keeps {i : Instr} {s t : State} (hb : s.flags.busy = false) (h : exec i s = .next t) : Keeps s t := by
  cases hr : s.rst with
  | true =>
    rw [exec_reset s hr] at h
    cases h
    exact Keeps.refl s
  | false =>
    have ha : Keeps s (accept s) := ⟨rfl, rfl, rfl, rfl, rfl, rfl, rfl, rfl⟩
    cases i with
    | drvl =>
      rw [exec_drvl s hr hb, complete_drivePad_accept] at h
      cases h
      exact ⟨rfl, rfl, rfl, rfl, rfl, rfl, rfl, rfl⟩
    | drvh =>
      rw [exec_drvh s hr hb, complete_drivePad_accept] at h
      cases h
      exact ⟨rfl, rfl, rfl, rfl, rfl, rfl, rfl, rfl⟩
    | rel =>
      rw [exec_rel s hr hb, complete_drivePad_accept] at h
      cases h
      exact ⟨rfl, rfl, rfl, rfl, rfl, rfl, rfl, rfl⟩
    | await level budget =>
      rw [exec_await s hr hb] at h
      cases h
      by_cases hf : (accept s).cfg.pollUs ≤ (BitVec.ofNat 16 budget).toNat
      · rw [beginAwait_fits (accept s) _ _ hf]
        exact ha.trans ⟨rfl, rfl, rfl, rfl, rfl, rfl, rfl, rfl⟩
      · rw [beginAwait_short (accept s) _ _ hf]
        exact ha.trans ⟨rfl, rfl, rfl, rfl, rfl, rfl, rfl, rfl⟩
    | acq wantH wantT =>
      rw [exec_acq s hr hb] at h
      cases h
      by_cases hf : (wantH || wantT) = true
      · rw [beginAcq_wanted (accept s) _ _ hf]
        exact ha.trans ⟨rfl, rfl, rfl, rfl, rfl, rfl, rfl, rfl⟩
      · obtain ⟨rfl, rfl⟩ : wantH = false ∧ wantT = false := by simpa using hf
        rw [beginAcq_none (accept s)]
        exact ha.trans ⟨rfl, rfl, rfl, rfl, rfl, rfl, rfl, rfl⟩

end Sys2Proof.Machine
end

