-- ==== Sys2Proof/Laws/ClosedForm.lean ====
section
/-! SUPPORT. What the closed computations write, and what they leave. -/

namespace Sys2Proof.Machine

variable (s : State)

/-- The whole start pulse (R97). -/
theorem startPulse_eq :
    startPulse s =
      { s with
        pad := Pad.Z
        seq := ⟨.startPulse, false, 0#6⟩
        now := s.now + s.cfg.startLowUs + s.cfg.startHighUs
        env :=
          { s.env with
            clock := s.env.clock + s.cfg.startLowUs + s.cfg.startHighUs
            drives :=
              (s.env.clock + s.cfg.startLowUs + s.cfg.startHighUs, Pad.Z) ::
              (s.env.clock + s.cfg.startLowUs, Pad.H) :: (s.env.clock, Pad.L) :: s.env.drives } } := by
  simp only [startPulse, driveLow_eq, driveHigh_eq, release_eq, passTime_eq, State.setSeq]

/-- ACQ with a reading requested, from its acceptance on: the window and the pulse, then the stages. -/
theorem acqCommand_wanted (wantH wantT : Bool) (h : (wantH || wantT) = true) :
    acqCommand wantH wantT s =
      fromSensorAck (startPulse
        { s with
          dec := { s.dec with wantH := wantH, wantT := wantT, bitBuf := 0#40 }
          flags := { s.flags with busy := true, atomic := true } }) := by
  have hn : ¬ (wantH = false ∧ wantT = false) := by
    cases wantH <;> cases wantT <;> simp at h ⊢
  simp only [acqCommand, hn, if_neg, not_false_eq_true, beginWindow_eq, markBusy_eq, State.setDec]

/-- A wait writes only the time and the Edge Timer. -/
theorem awaitLoop_keeps (l : Bool) (n : Nat) :
    (awaitLoop l n s).2 =
      { s with
        now := (awaitLoop l n s).2.now
        env := { s.env with clock := (awaitLoop l n s).2.env.clock }
        et := (awaitLoop l n s).2.et } := by
  induction n generalizing s with
  | zero => rfl
  | succ n ih =>
    rw [awaitLoop]
    dsimp only
    split
    · rfl
    · rw [ih]
      rfl

theorem awaitClosed_keeps (b : Dur) (l : Bool) :
    (awaitClosed b l s).2 =
      { s with
        now := (awaitClosed b l s).2.now
        env := { s.env with clock := (awaitClosed b l s).2.env.clock }
        et := (awaitClosed b l s).2.et } := by
  unfold awaitClosed
  dsimp only
  rw [stopTimer_eq, awaitLoop_keeps]
  rfl

end Sys2Proof.Machine
end

