-- ==== Sys2Proof/Laws/HostPort.lean ====
section
/-! SUPPORT. What a register write does when it has no effect of its own, and that a microsecond of the block does not depend on the host. -/

namespace Sys2Proof.Machine

variable (s : State)

/-- While `rst` is asserted a write to any register of the map has no effect (R148). -/
theorem hostWrite_reset (r : HostReg) (v : Word) (hr : s.rst = true) : hostWrite r v s = .next s := by
  by_cases hc : r = .cmd
  · subst hc
    show deliverWord v s = _
    unfold deliverWord
    split
    · exact exec_reset s hr _
    · rw [writeGate_reset s _ hr]
  · rw [hostWrite_register s r v hc, writeGate_reset s _ hr]

/-- While `BUSY = 1` a write to any register of the map is dropped (R43). -/
theorem hostWrite_busy (r : HostReg) (v : Word) (hr : s.rst = false) (hb : s.flags.busy = true) :
    hostWrite r v s = .next (overrun s) := by
  by_cases hc : r = .cmd
  · subst hc
    show deliverWord v s = _
    unfold deliverWord
    split
    · exact exec_busy s hr hb _
    · rw [writeGate_busy s _ hr hb]
  · rw [hostWrite_register s r v hc, writeGate_busy s _ hr hb]

/-! A tick does not look at the host's end of the bus. -/

theorem waitTimedOut_setBus (b : Bus) : waitTimedOut (s.setBus b) = (waitTimedOut s).setBus b := by
  unfold waitTimedOut
  rw [State.setBus_seq]
  split <;> simp only [awaitTimeout, complete_eq, raiseErr_eq, fail_eq, State.setBus]

theorem startStage_setBus (q : Seq) (d : Dur) (l : Bool) (b : Bus) :
    startStage q d l (s.setBus b) = (startStage q d l s).setBus b := by
  by_cases h : s.cfg.pollUs ≤ d.toNat
  · rw [startStage_fits s q d l h, startStage_fits (s.setBus b) q d l h]; rfl
  · rw [startStage_short s q d l h, startStage_short (s.setBus b) q d l h]
    exact waitTimedOut_setBus { s with seq := q, et := ⟨0#16, d, l, false, 0#3⟩ } b

theorem checkFrame_setBus (b : Bus) : checkFrame (s.setBus b) = (checkFrame s).setBus b := by
  by_cases h : (pack s.dec.bitBuf).valid = true
  · rw [checkFrame_valid s h, checkFrame_valid (s.setBus b) h, commit_eq, commit_eq]; rfl
  · rw [checkFrame_invalid s h, checkFrame_invalid (s.setBus b) h, fail_eq, fail_eq]; rfl

theorem waitMet_setBus (b : Bus) : waitMet (s.setBus b) = (waitMet s).setBus b := by
  unfold waitMet
  rw [State.setBus_seq]
  split
  · rfl
  · exact startStage_setBus s _ _ _ b
  · exact startStage_setBus s _ _ _ b
  · exact startStage_setBus s _ _ _ b
  · split
    · by_cases h : s.seq.bitIdx.toNat < 39
      · rw [highPhaseDone_next s h, highPhaseDone_next (s.setBus b) h]
        have key := fun d : Decoder => startStage_setBus (s.setDec d) ⟨.readBit, false, s.seq.bitIdx + 1#6⟩ s.regs.tBitLow true b
        exact key _
      · rw [highPhaseDone_last s h, highPhaseDone_last (s.setBus b) h, endBits_eq, endBits_eq]
        have key := fun d : Decoder => checkFrame_setBus ((endWindow (s.setDec d)).setSeq ⟨.checksum, false, 0#6⟩) b
        exact key _
    · exact startStage_setBus (s.setDec _) _ _ _ b
  · rfl
  · rfl
  · rfl

theorem pollTick_setBus (b : Bus) :
    pollTick waitMet waitTimedOut (s.setBus b) = (pollTick waitMet waitTimedOut s).setBus b := by
  unfold pollTick
  rw [State.setBus_et, State.setBus_cfg]
  split
  · rfl
  · dsimp only
    rw [show (reachSample (s.setBus b)).line = (reachSample s).line from rfl,
      show (reachSample (s.setBus b)).et = (reachSample s).et from rfl,
      show sampleFits (reachSample (s.setBus b)) = sampleFits (reachSample s) from rfl]
    split
    · exact waitMet_setBus (stopTimer (reachSample s)) b
    · split
      · rfl
      · exact waitTimedOut_setBus (stopTimer (reachSample s)) b

theorem endStartHigh_setBus (b : Bus) : endStartHigh (s.setBus b) = (endStartHigh s).setBus b :=
  startStage_setBus (release s) _ _ _ b

theorem endStartLow_setBus (b : Bus) : endStartLow (s.setBus b) = (endStartLow s).setBus b := by
  by_cases h : BitVec.ofNat 16 s.cfg.startHighUs = 0#16
  · rw [endStartLow_none s h, endStartLow_none (s.setBus b) h]
    exact endStartHigh_setBus ((driveHigh s).setSeq ⟨.startPulse, true, 0#6⟩ |>.setDly 0#16) b
  · rw [endStartLow_high s h, endStartLow_high (s.setBus b) h]; rfl

theorem startPulseTick_setBus (b : Bus) : startPulseTick (s.setBus b) = (startPulseTick s).setBus b := by
  rcases startPulseTick_cases s with ⟨h, e⟩ | ⟨h, hs, e⟩ | ⟨h, hs, e⟩ <;>
    rcases startPulseTick_cases (s.setBus b) with ⟨h', e'⟩ | ⟨h', hs', e'⟩ | ⟨h', hs', e'⟩ <;>
    first
      | exact absurd h' h
      | exact absurd h h'
      | exact Bool.noConfusion (hs.symm.trans hs')
      | rw [e, e']
  · rfl
  · exact endStartHigh_setBus { s with dly := 0#16 } b
  · exact endStartLow_setBus { s with dly := 0#16 } b

/-- What a microsecond does, it does whatever stands on the host's end of the bus. -/
theorem tick_setBus {s t : State} (b : Bus) (h : tick s = .next t) : tick (s.setBus b) = .next (t.setBus b) := by
  cases hr : s.rst with
  | true =>
    rw [tick_reset s hr] at h
    rw [tick_reset (s.setBus b) hr]
    cases h
    rfl
  | false =>
    cases hb : s.flags.busy with
    | false =>
      rw [tick_idle s hr hb] at h
      rw [tick_idle (s.setBus b) hr hb]
      cases h
      rfl
    | true =>
      rw [tick_busy s hr hb] at h
      rw [tick_busy (s.setBus b) hr hb, show passTime 1 (s.setBus b) = (passTime 1 s).setBus b from rfl]
      have hw : ∀ u : State, waitTick u = .next t → waitTick (u.setBus b) = .next (t.setBus b) := fun u hu => by
        unfold waitTick at hu ⊢
        rw [State.setBus_et]
        split at hu
        · next hrun => rw [if_pos hrun]; cases hu; rw [pollTick_setBus]
        · cases hu
      unfold busyTick at h ⊢
      rw [State.setBus_seq, State.setBus_dly]
      split at h
      · exact hw _ h
      · split at h
        · cases h
        · next hd => rw [if_neg hd]; cases h; rw [startPulseTick_setBus]
      · exact hw _ h
      · exact hw _ h
      · exact hw _ h
      · exact hw _ h
      · cases h; rw [checkFrame_setBus]
      · cases h
        show Host.Outcome.next (commit _) = _
        rw [commit_eq, commit_eq]; rfl

end Sys2Proof.Machine
end

