-- ==== Sys2Proof/Laws/PerInstr.lean ====
section
/-! SUPPORT. Per instruction: its word selects the row of the opcode map that bears its mnemonic (R60). -/

namespace Sys2Proof.Laws

/-- The word of a well-formed instruction selects the row of the opcode map that bears its mnemonic (R60). -/
def SelectsRow.Statement (i : Instr) : Prop :=
  i.WellFormed → ∃ r ∈ opcodeMap, r.mnemonic = i.mnemonic ∧ r.Selects (encode i)

theorem SelectsRow.drvl : SelectsRow.Statement .drvl := fun _ => by decide

theorem SelectsRow.drvh : SelectsRow.Statement .drvh := fun _ => by decide

theorem SelectsRow.rel : SelectsRow.Statement .rel := fun _ => by decide

/-- The mask of AWAIT clears LEVEL and BUDGET and keeps the rest of a format W word (R55, R60). -/
theorem encodeW_masked (level : Bool) (budget : Nat) : encodeW level budget &&& 0xFFFE0000#32 = 0x40000000#32 := by
  have hp : (0x40000000#32 : Word) = (4#4 ++ 0#11 ++ 0#1 ++ 0#16 : BitVec (4 + 11 + 1 + 16)) := by decide
  have hm : (0xFFFE0000#32 : Word) =
      (BitVec.allOnes 4 ++ BitVec.allOnes 11 ++ 0#1 ++ 0#16 : BitVec (4 + 11 + 1 + 16)) := by decide
  rw [hp, hm]
  show ((4#4 ++ 0#11 ++ BitVec.ofBool level ++ BitVec.ofNat 16 budget : BitVec (4 + 11 + 1 + 16)) &&& _) = _
  rw [BitVec.and_append, BitVec.and_append, BitVec.and_append]
  simp

theorem SelectsRow.await (level : Bool) (budget : Nat) : SelectsRow.Statement (.await level budget) := fun _ =>
  ⟨⟨"AWAIT", 0x40000000#32, 0xFFFE0000#32⟩, by decide, rfl, encodeW_masked level budget⟩

theorem SelectsRow.acq (wantH wantT : Bool) : SelectsRow.Statement (.acq wantH wantT) := fun _ => by
  cases wantH <;> cases wantT <;> decide

end Sys2Proof.Laws
end

