-- ==== Sys2Proof/Tests/Slice0.lean ====
section
/-! SUPPORT. Tests of single operations against the spec's own vectors (95_test_vectors.md), and a witness for the hypotheses of every
obligation that has some. -/

namespace Sys2Proof.Tests

open Sys2Proof Sys2Proof.Machine

/-! ### Well-formedness refuses ill-formed terms -/

/-- A budget of 65536 does not fit the field BUDGET (R57). -/
theorem test_wellFormed_budget : ¬ (Instr.await true 65536).WellFormed ∧ (Instr.await true 65535).WellFormed := by decide

/-- R40: width, alignment and range of an access, write and read (vector M13). -/
theorem test_wellFormed_access :
    ¬ (HostAction.write .half 0x04 0#32).WellFormed ∧ ¬ (HostAction.write .word 0x06 0#32).WellFormed ∧
    ¬ (HostAction.write .word 0x34 0#32).WellFormed ∧ ¬ (HostAction.read .byte 0x04).WellFormed ∧
    ¬ (HostAction.read .word 0x06).WellFormed ∧ ¬ (HostAction.read .word 0x34).WellFormed ∧
    (HostAction.read .word 0x30).WellFormed := by decide

/-! ### Decoding: words written out from R54 to R56 and the tables of section 2.1 -/

/-- Format N, bit by bit. -/
theorem test_decode_lineCommands :
    decode 0b00010000000000000000000000000000#32 = .command .drvl ∧
    decode 0b00100000000000000000000000000000#32 = .command .drvh ∧
    decode 0b00110000000000000000000000000000#32 = .command .rel := by decide

/-- Format W, bit by bit: level in bit 16, budget 80 in bits 15:0. -/
theorem test_decode_await :
    decode 0b01000000000000010000000001010000#32 = .command (.await true 80) ∧
    decode 0b01000000000000000000000000101000#32 = .command (.await false 40) := by decide

/-- Format Q, bit by bit: humidity in bit 0, temperature in bit 1. -/
theorem test_decode_acq :
    decode 0b01010000000000000000000000000001#32 = .command (.acq true false) ∧
    decode 0b01010000000000000000000000000010#32 = .command (.acq false true) ∧
    decode 0b01010000000000000000000000000000#32 = .command (.acq false false) := by decide

/-- The illegal words of section 2.1. -/
theorem test_decode_illegal :
    decode 0x00000000#32 = .illegal .opcode ∧ decode 0x60000000#32 = .illegal .opcode ∧
    decode 0xF0000000#32 = .illegal .opcode ∧ decode 0x10000001#32 = .illegal .reservedBits ∧
    decode 0x30000100#32 = .illegal .reservedBits ∧ decode 0x40020000#32 = .illegal .reservedBits ∧
    decode 0x4FFFFFFF#32 = .illegal .reservedBits ∧ decode 0x50000004#32 = .illegal .reservedBits := by decide

/-- Section 2.1, from assembler to word. -/
theorem test_encode :
    encode .drvl = 0x10000000#32 ∧ encode .drvh = 0x20000000#32 ∧ encode .rel = 0x30000000#32 ∧
    encode (.await true 65) = 0x40010041#32 ∧ encode (.await false 0) = 0x40000000#32 ∧
    encode (.acq true true) = 0x50000003#32 ∧ encode (.acq true false) = 0x50000001#32 := by decide

/-! ### The pure functions (section 2.4) -/

theorem test_decideBit :
    decideBit 50#16 26#16 = false ∧ decideBit 50#16 70#16 = true ∧ decideBit 50#16 50#16 = false ∧
    decideBit 64#16 74#16 = true ∧ decideBit 65535#16 65535#16 = false ∧ decideBit 0#16 1#16 = true := by decide

/-- Bits 0 and 8 to arrive are the top bits of bytes 0 and 1, bit 39 is the lowest of byte 4. -/
theorem test_pack :
    pack (1#40 <<< 0) = ⟨0x80#8, 0#8, 0#8, 0#8, 0#8⟩ ∧ pack (1#40 <<< 39) = ⟨0#8, 0#8, 0#8, 0#8, 1#8⟩ ∧
    pack (1#40 <<< 7) = ⟨1#8, 0#8, 0#8, 0#8, 0#8⟩ ∧ pack (1#40 <<< 8) = ⟨0#8, 0x80#8, 0#8, 0#8, 0#8⟩ := by decide

theorem test_checksum :
    Frame.valid ⟨0x20#8, 0#8, 0x15#8, 0#8, 0x35#8⟩ = true ∧ Frame.valid ⟨0x20#8, 0#8, 0x15#8, 0#8, 0x36#8⟩ = false ∧
    Frame.valid ⟨0xFF#8, 0xFF#8, 0xFF#8, 0xFF#8, 0xFC#8⟩ = true ∧
    Frame.valid ⟨0xFF#8, 0xFF#8, 0xFF#8, 0xFF#8, 0xFF#8⟩ = false ∧
    Frame.valid ⟨0x80#8, 0#8, 0x80#8, 0#8, 0#8⟩ = true := by decide

theorem test_convert :
    convert 0x20#8 = 320#16 ∧ convert 0x15#8 = 210#16 ∧ convert 0x80#8 = 1280#16 ∧ convert 0xFF#8 = 2550#16 := by decide

/-- R109: with every default an acquisition takes at most 23721 microseconds. -/
theorem test_longestRun_defaults : longestRun (.acq true true) State.reset = 23721 := by decide

/-! ### One step of each command -/

/-- `s` with these actions as the host's next ones. -/
def withScript (s : State) (script : List HostAction) : State := s.setBus { s.bus with script := script }

/-- `s` with this stimulus. -/
def withStim (s : State) (stim : List (Nat × Bool)) : State := s.setEnv { s.env with stim := stim }

/-- What `f` shows of the state after an outcome, if it is a next state. -/
def after (o : Host.Outcome State Fault Refusal) (f : State → Word) : Option Word :=
  match o with
  | .next t => some (f t)
  | .fault _ => none
  | .refused _ => none

/-- Vectors L1 to L3. -/
theorem test_drvl : after (exec .drvl State.reset) (readReg .status) = some 0x00080002#32 := by decide
theorem test_drvh : after (exec .drvh State.reset) (readReg .status) = some 0x000C0002#32 := by decide
theorem test_rel :
    after (exec .rel { State.reset with pad := Pad.H, err := ⟨.handshakeTimeout, 3#6⟩ }) (readReg .status) =
      some 0x00000002#32 := by decide

/-- Vectors A9 and A10: a budget below the polling interval is over at once. -/
theorem test_await_short : after (exec (.await false 1) State.reset) (readReg .status) = some 0x00500002#32 := by decide

/-- Vector A11, the tick of its only sample. -/
theorem test_await_sample :
    after (tick (withStim
      { State.reset with et := ⟨0#16, 2#16, false, true, 1#3⟩, flags := ⟨true, false, false, false⟩ } [(0, false)]))
      (readReg .status) = some 0x00000002#32 := by decide

/-- Vector Q4. -/
theorem test_acq_none : after (exec (.acq false false) State.reset) (readReg .status) = some 0x00100002#32 := by decide

/-- The first row of section 2.7. -/
theorem test_acq_starts : after (exec (.acq true true) State.reset) (readReg .status) = some 0x00080105#32 := by decide

/-- The illegal words of section 2.1 in `STATUS`. -/
theorem test_illegal_word :
    after (step (withScript State.reset [.write .word 0 0x60000000#32])) (readReg .status) = some 0x00600002#32 := by decide

/-- Vectors M5 and M6: unimplemented bits. -/
theorem test_registers_implemented_bits :
    after (hostWrite .tAck 0x00012345#32 State.reset) (readReg .tAck) = some 0x00002345#32 ∧
    after (hostWrite .pin 0x00000104#32 State.reset) (readReg .pin) = some 0x00000004#32 := by decide

/-- R148: a command written while `rst` is asserted starts nothing and marks no overrun; `T_ACK` reads its default. -/
theorem test_write_in_reset :
    after (step (withScript { State.reset with rst := true } [.write .word 0 0x50000003#32])) (readReg .status) =
      some 0x00000000#32 ∧
    after (step (withScript { State.reset with rst := true } [.write .word 0x0C 10#32])) (readReg .tAck) = some 40#32 := by
  decide

/-! ### Concrete states of the invariant -/

/-- An idle block after a DRVL. -/
def idle : State :=
  { State.reset with
    pad := Pad.L, flags := ⟨false, true, false, false⟩, now := 7, env := ⟨7, [], [(3, Pad.L)], 0⟩ }

/-- An idle block after a successful acquisition of the frame of E1. -/
def served : State :=
  { State.reset with
    pad := Pad.H, flags := ⟨false, true, false, false⟩
    res := ⟨⟨0x20#8, 0#8, 0x15#8, 0#8, 0x35#8⟩, 320#16, 210#16, true, true⟩
    et := ⟨70#16, 75#16, false, false, 0#3⟩, dec := ⟨50#16, 70#16, 5#40, true, true⟩
    now := 7, env := ⟨7, [], [(3, Pad.L)], 7⟩ }

/-- `served`, so many microseconds later. -/
def later (n : Nat) : State := { served with env := { served.env with clock := 7 + n } }

/-- R162: the next command is not issued before the readings are collected, and no reading is used before `STATUS`. -/
theorem test_duty_collect :
    hostDuty served (.write .word 0 0x10000000#32) = false ∧ hostDuty served (.read .word 0x2C) = false ∧
    hostDuty served (.read .word 0x04) = true ∧ hostDuty idle (.write .word 0 0x20000000#32) = true := by decide

/-- A standalone AWAIT for the line to fall, one microsecond before its next sample. -/
def awaiting (stim : List (Nat × Bool)) : State :=
  { State.reset with
    et := ⟨2#16, 40#16, false, true, 1#3⟩, flags := ⟨true, false, false, false⟩
    now := 3, env := ⟨3, stim, [], 0⟩ }

/-- An acquisition at the end of the low half of its start pulse. -/
def pulsing : State :=
  { State.reset with
    seq := ⟨.startPulse, false, 0#6⟩, pad := Pad.L, dly := 1#16, dec := ⟨0#16, 0#16, 0#40, true, false⟩
    flags := ⟨true, false, true, false⟩ }

/-- An acquisition in a stage that waits, one microsecond before its next sample, at microsecond 9; `stim` is the line. -/
def sampling (q : Seq) (b : Dur) (l : Bool) (elapsed : Dur) (regs : Regs) (stim : List (Nat × Bool)) : State :=
  { State.reset with
    seq := q, et := ⟨elapsed, b, l, true, 1#3⟩, dec := ⟨50#16, 26#16, 0#40, true, true⟩
    flags := ⟨true, false, true, false⟩, regs := regs, now := 9, env := ⟨9, stim, [(3, Pad.Z)], 0⟩ }

/-- A block held in reset. -/
def held (script : List HostAction) : State := withScript { State.reset with rst := true } script

/-- An idle block with this budget for AwaitSensorAck. -/
def budgeted (tAck : Dur) : State := { idle with regs := { idle.regs with tAck := tAck } }

/-- The budgets at reset. -/
def usual : Regs := Regs.initial Config.default

/-- The budgets at reset, but those of the stages after AwaitSensorAck below the polling interval. -/
def short : Regs := { usual with tReady := 1#16, tDstart := 0#16, tBitLow := 1#16, tBitHigh := 0#16 }

theorem inv_idle : Inv idle := by
  constructor <;> constructor <;> first | decide | rfl

/-- The invariant does not speak of the stimulus. -/
theorem inv_withStim {s : State} (stim : List (Nat × Bool)) (h : Inv s) (hr : s.rst = false) : Inv (withStim s stim) :=
  have a := h.spec
  have b := h.shape
  ⟨⟨a.1, a.2, a.3, a.4, a.5, a.6, a.7, a.8, a.9⟩,
    ⟨b.1, b.2, b.3, b.4, b.5, b.6, b.7, b.8, b.9, b.10, b.11, b.12, b.13, b.14, b.15, b.16, b.17, b.18,
      fun h => Bool.noConfusion (hr.symm.trans h), b.20⟩⟩

theorem inv_served : Inv served := by
  constructor <;> constructor <;> first | decide | rfl

theorem inv_awaiting : Inv (awaiting [(0, false)]) := by
  constructor <;> constructor <;> first | decide | rfl

theorem inv_pulsing : Inv pulsing := by
  constructor <;> constructor <;> first | decide | rfl

/-- AwaitSensorAck, the line low at the sample. -/
def ack (regs : Regs) : State := sampling ⟨.awaitSensorAck, false, 0#6⟩ regs.tAck false 0#16 regs [(0, false)]
/-- AwaitSensorReady, the line high at the sample. -/
def ready (regs : Regs) : State := sampling ⟨.awaitSensorReady, false, 0#6⟩ 80#16 true 0#16 regs [(0, true)]
/-- AwaitDataStart, the line low at the sample. -/
def data (regs : Regs) : State := sampling ⟨.awaitDataStart, false, 0#6⟩ 80#16 false 0#16 regs [(0, false)]
/-- The low phase of bit 17, the line high at the sample. -/
def low (regs : Regs) : State := sampling ⟨.readBit, false, 17#6⟩ 65#16 true 48#16 regs [(0, true)]
/-- The high phase of bit `i`, the line low at the sample. -/
def high (i : BitVec 6) (regs : Regs) : State :=
  sampling ⟨.readBit, true, i⟩ regs.tBitHigh false 24#16 regs [(0, false)]

theorem inv_ack : Inv (ack usual) := by
  constructor <;> constructor <;> first | decide | rfl
theorem inv_ready : Inv (ready usual) := by
  constructor <;> constructor <;> first | decide | rfl
theorem inv_data : Inv (data usual) := by
  constructor <;> constructor <;> first | decide | rfl
theorem inv_low : Inv (low usual) := by
  constructor <;> constructor <;> first | decide | rfl
theorem inv_high : Inv (high 17#6 usual) := by
  constructor <;> constructor <;> first | decide | rfl
theorem inv_last : Inv (high 39#6 usual) := by
  constructor <;> constructor <;> first | decide | rfl

/-! ### A witness for the hypotheses of every obligation that has some -/

theorem witness_DecodeEncodeRoundTrip : (Instr.await true 65535).WellFormed ∧ (Instr.await false 0).WellFormed := by decide

theorem witness_EncodeDecodeRoundTrip : decode 0x4001FFFF#32 = .command (.await true 65535) := by decide

theorem witness_DecoderFollowsOpcodeMap :
    (decode 0x40010050#32 = .command (.await true 80) ∧
      ⟨"AWAIT", 0x40000000#32, 0xFFFE0000#32⟩ ∈ opcodeMap ∧
      Row.Selects ⟨"AWAIT", 0x40000000#32, 0xFFFE0000#32⟩ 0x40010050#32) := by decide

theorem witness_StepRunsDecodedCommand :
    decode 0x30000000#32 = .command .rel ∧
    (withScript idle [.write .word 0x00 0x30000000#32]).bus.script = .write .word 0x00 0x30000000#32 :: [] := by decide

theorem witness_IllegalWordReported :
    decode 0x40020000#32 = .illegal .reservedBits ∧ decode 0xF0000000#32 = .illegal .opcode ∧
    idle.rst = false ∧ idle.flags.busy = false ∧
    (withScript idle [.write .word 0x00 0x40020000#32]).bus.script = .write .word 0x00 0x40020000#32 :: [] := by decide

theorem witness_WriteWhileBusyOverruns :
    (pulsing.rst = false ∧ pulsing.flags.busy = true ∧ MappedOffset 0x00 ∧ MappedOffset 0x30 ∧
      (withScript pulsing [.write .word 0x30 5#32]).bus.script = .write .word 0x30 5#32 :: []) ∧
    (∃ t, step { idle with flags := { idle.flags with ovr := true } } = .next t) ∧
    (∀ rest, idle.bus.script ≠ .rst true :: rest) :=
  ⟨by decide, ⟨_, rfl⟩, by simp [idle, State.reset, State.initial]⟩

theorem witness_UndefinedAccessRefused :
    (withScript idle [.write .half 0x04 0#32]).bus.script = .write .half 0x04 0#32 :: [] ∧
    (withScript idle [.read .word 0x30]).bus.script = .read .word 0x30 :: [] := by decide

theorem witness_AccessesTouchOnlyTheirRegister :
    (withScript pulsing [.read .word HostReg.temp.offset]).bus.script = .read .word HostReg.temp.offset :: [] ∧
    (HostReg.temp ∈ [HostReg.status, .dur, .frameLo, .frameHi, .hum, .temp] ∧ idle.rst = false ∧
      idle.flags.busy = false ∧
      (withScript idle [.write .word HostReg.temp.offset 1#32]).bus.script =
        .write .word HostReg.temp.offset 1#32 :: []) ∧
    (HostReg.pin ∈ [HostReg.pin, .tAck, .tReady, .tDstart, .tBitLow, .tBitHigh] ∧
      (withScript idle [.write .word HostReg.pin.offset 0x104#32]).bus.script =
        .write .word HostReg.pin.offset 0x104#32 :: []) := by decide

theorem witness_StatusFields :
    idle.rst = false ∧ idle.flags.busy = false ∧
    (withScript idle [.write .word 0x04 0#32]).bus.script = .write .word 0x04 0#32 :: [] := by decide

theorem witness_ReadsWhileBusyAreLive :
    Inv (high 17#6 usual) ∧ (high 17#6 usual).rst = false ∧ (high 17#6 usual).flags.busy = true ∧
    (withScript (high 17#6 usual) [.read .word HostReg.dur.offset]).bus.script =
      .read .word HostReg.dur.offset :: [] := ⟨inv_high, by decide⟩

theorem witness_RegisterMapReads :
    0 < 4 ∧ 3 < 4 ∧ MappedOffset 0x30 ∧ ¬ MappedOffset 0x34 ∧ ¬ MappedOffset 0x02 := by decide

theorem witness_ResultsHeldUntilNextAcceptance :
    (served.rst = false ∧ served.flags.busy = false ∧ (∀ w rest, served.bus.script ≠ .write .word 0x00 w :: rest) ∧
      (∀ rest, served.bus.script ≠ .rst true :: rest) ∧ ∃ t, step served = .next t) ∧
    (served.rst = false ∧ served.flags.busy = false ∧
      (withScript served [.write .word 0x00 0x10000000#32]).bus.script = .write .word 0x00 0x10000000#32 :: [] ∧
      ∃ t, step (withScript served [.write .word 0x00 0x10000000#32]) = .next t) :=
  ⟨⟨rfl, rfl, by simp [served, State.reset, State.initial], by simp [served, State.reset, State.initial], _, rfl⟩,
    rfl, rfl, rfl, _, rfl⟩

theorem witness_WaitPollsStatus :
    (withScript idle [.wait]).bus.script = .wait :: [] ∧ (withScript idle [.wait]).flags.busy = false ∧
    (withScript pulsing [.wait]).bus.script = .wait :: [] ∧ (withScript pulsing [.wait]).flags.busy = true := by decide

theorem witness_GapPassesTime :
    ((withScript idle [.gap 3]).rst = false ∧ (withScript idle [.gap 3]).flags.busy = false ∧
      (withScript idle [.gap 3]).bus.script = .gap 3 :: []) ∧
    ((withScript pulsing [.gap 3]).flags.busy = true ∧ (withScript pulsing [.gap 3]).bus.script = .gap (2 + 1) :: [] ∧
      ∃ t, tick (withScript pulsing [.gap 3]) = .next t) ∧
    (pulsing.bus.script = [] ∧ ∃ t, tick pulsing = .next t) ∧
    (withScript pulsing [.gap 0]).bus.script = .gap 0 :: [] :=
  ⟨by decide, ⟨rfl, rfl, _, rfl⟩, ⟨rfl, _, rfl⟩, rfl⟩

theorem witness_LineCommandsSetLine :
    idle.rst = false ∧ idle.flags.busy = false ∧ pulsing.rst = false ∧ pulsing.flags.busy = true ∧
    (∃ t u, exec .drvh State.reset = .next t ∧ exec .rel t = .next u) ∧ ∃ t, exec .drvl State.reset = .next t :=
  ⟨rfl, rfl, rfl, rfl, ⟨_, _, rfl, rfl⟩, _, rfl⟩

theorem witness_CommandsDroppedWhileBusy :
    (pulsing.rst = false ∧ pulsing.flags.busy = true) ∧ (held []).rst = true := by decide

theorem witness_LineWrittenOnlyByDriver :
    (∃ t, step (withScript idle [.rst true]) = .next t ∧ t.pad ≠ idle.pad) ∧
    (∃ t, step (withScript idle [.write .word 0x00 0x20000000#32]) = .next t ∧ t.pad ≠ idle.pad) ∧
    (∃ t, step pulsing = .next t ∧ t.pad ≠ pulsing.pad) :=
  ⟨⟨_, rfl, by decide⟩, ⟨_, rfl, by decide⟩, _, rfl, by decide⟩

theorem witness_AwaitStarts :
    idle.rst = false ∧ idle.flags.busy = false ∧ 65535 < 65536 ∧ idle.cfg.pollUs ≤ 65535 ∧ idle.cfg.pollUs ≤ 2 ∧
    1 < idle.cfg.pollUs := by decide

/-- An idle block whose line is high until microsecond 7 + `e` and low from then on. -/
def falling (e : Nat) : State := withStim idle [(0, true), (7 + e, false)]

theorem inv_falling (e : Nat) : Inv (falling e) := inv_withStim _ inv_idle rfl

/-- Both clauses: the first match at the last sample of the budget, and no match in it. -/
theorem witness_AwaitMeasuresFirstMatch :
    Inv (falling 40) ∧ (falling 40).rst = false ∧ (falling 40).flags.busy = false ∧ 40 < 65536 ∧
    (1 ≤ 20 ∧ 20 ≤ 40 / (falling 40).cfg.pollUs ∧
      (falling 40).env.lineAt ((falling 40).env.clock + 20 * (falling 40).cfg.pollUs) = false ∧
      ∀ j, 1 ≤ j → j < 20 → (falling 40).env.lineAt ((falling 40).env.clock + j * (falling 40).cfg.pollUs) ≠ false) ∧
    (∀ k, 1 ≤ k → k ≤ 40 / (falling 41).cfg.pollUs →
      (falling 41).env.lineAt ((falling 41).env.clock + k * (falling 41).cfg.pollUs) ≠ false) := by
  have h : ∀ k, k < 20 → (falling 40).env.lineAt (7 + k * 2) ≠ false := by decide
  have g : ∀ k, k < 21 → (falling 41).env.lineAt (7 + k * 2) ≠ false := by decide
  exact ⟨inv_falling 40, rfl, by decide, by decide, ⟨by decide, by decide, by decide, fun j _ hj => h j hj⟩,
    fun k _ hk => g k (Nat.lt_succ_of_le hk)⟩

theorem witness_AwaitLiveView :
    Inv (falling 40) ∧ (falling 40).rst = false ∧ (falling 40).flags.busy = false ∧ 40 < 65536 ∧
    39 < 40 / (falling 40).cfg.pollUs * (falling 40).cfg.pollUs ∧
    (∀ j, 1 ≤ j → j * (falling 40).cfg.pollUs ≤ 39 →
      (falling 40).env.lineAt ((falling 40).env.clock + j * (falling 40).cfg.pollUs) ≠ false) := by
  have h : ∀ k, k < 20 → (falling 40).env.lineAt (7 + k * 2) ≠ false := by decide
  refine ⟨inv_falling 40, rfl, by decide, by decide, by decide, fun j _ hj => h j ?_⟩
  have : j * 2 ≤ 39 := hj
  omega

theorem witness_AwaitQuantises :
    Inv (falling 39) ∧ (falling 39).rst = false ∧ (falling 39).flags.busy = false ∧ 40 < 65536 ∧ 1 ≤ 39 ∧
    39 ≤ 40 / (falling 39).cfg.pollUs * (falling 39).cfg.pollUs ∧
    (∀ t, (falling 39).env.clock < t → t < (falling 39).env.clock + 39 → (falling 39).env.lineAt t ≠ false) ∧
    (∀ t, (falling 39).env.clock + 39 ≤ t →
      t ≤ (falling 39).env.clock + (39 + (falling 39).cfg.pollUs - 1) / (falling 39).cfg.pollUs * (falling 39).cfg.pollUs →
      (falling 39).env.lineAt t = false) := by
  have h : ∀ t, t < 46 → (falling 39).env.lineAt t ≠ false := by decide
  have g : ∀ d, d < 2 → (falling 39).env.lineAt (46 + d) = false := by decide
  refine ⟨inv_falling 39, rfl, by decide, by decide, by decide, by decide, fun t _ ht => h t ht, fun t h1 h2 => ?_⟩
  have h1' : 46 ≤ t := h1
  have h2' : t ≤ 47 := h2
  have := g (t - 46) (by omega)
  rwa [show 46 + (t - 46) = t by omega] at this

theorem witness_AcqNoneInvalidArgument : idle.rst = false ∧ idle.flags.busy = false ∧ (true || false) = true := by decide

theorem witness_AcqStarts : idle.rst = false ∧ idle.flags.busy = false ∧ (false || true) = true := by decide

/-- The three parts of the pulse, and both clauses for its end: `T_ACK` at `POLL_US`, and one below it. -/
theorem witness_StartPulseShape :
    (Inv idle ∧ idle.rst = false ∧ idle.flags.busy = false ∧ (true || true) = true ∧
      17999 < idle.cfg.startLowUs ∧ idle.cfg.startLowUs ≤ 18000 ∧ 18000 < idle.cfg.startLowUs + idle.cfg.startHighUs) ∧
    (Inv (budgeted 2#16) ∧ (budgeted 2#16).rst = false ∧ (budgeted 2#16).flags.busy = false ∧
      (budgeted 2#16).cfg.pollUs ≤ (budgeted 2#16).regs.tAck.toNat) ∧
    (Inv (budgeted 1#16) ∧ (budgeted 1#16).rst = false ∧ (budgeted 1#16).flags.busy = false ∧
      ¬ (budgeted 1#16).cfg.pollUs ≤ (budgeted 1#16).regs.tAck.toNat) := by
  refine ⟨⟨inv_idle, by decide⟩, ⟨?_, by decide⟩, ?_, by decide⟩ <;>
    constructor <;> constructor <;> first | decide | rfl

theorem witness_HandshakeStagesAdvance :
    (Inv (ack usual) ∧ (ack usual).SampleNext ∧ (ack usual).nextLine = (ack usual).et.level ∧
      (ack usual).seq.stage = .awaitSensorAck ∧ (ack usual).cfg.pollUs ≤ (ack usual).regs.tReady.toNat) ∧
    (Inv (ready usual) ∧ (ready usual).SampleNext ∧ (ready usual).nextLine = (ready usual).et.level ∧
      (ready usual).seq.stage = .awaitSensorReady ∧ (ready usual).cfg.pollUs ≤ (ready usual).regs.tDstart.toNat) ∧
    (Inv (data usual) ∧ (data usual).SampleNext ∧ (data usual).nextLine = (data usual).et.level ∧
      (data usual).seq.stage = .awaitDataStart ∧ (data usual).cfg.pollUs ≤ (data usual).regs.tBitLow.toNat) :=
  ⟨⟨inv_ack, by decide⟩, ⟨inv_ready, by decide⟩, inv_data, by decide⟩

/-- `s` one sample short of the end of its budget, the line at the other level. -/
def missing (s : State) : State :=
  { s with
    et := { s.et with elapsed := BitVec.ofNat 16 (s.et.budget.toNat / 2 * 2 - 2) }
    env := { s.env with stim := [(0, !s.et.level)] } }

theorem witness_StageTimeoutsFail :
    (Inv (missing (ack usual)) ∧ (missing (ack usual)).SampleNext ∧ (missing (ack usual)).LastSample ∧
      (missing (ack usual)).nextLine ≠ (missing (ack usual)).et.level ∧
      (missing (ack usual)).seq.stage = .awaitSensorAck) ∧
    (Inv (missing (ready usual)) ∧ (missing (ready usual)).SampleNext ∧ (missing (ready usual)).LastSample ∧
      (missing (ready usual)).nextLine ≠ (missing (ready usual)).et.level ∧
      (missing (ready usual)).seq.stage = .awaitSensorReady) ∧
    (Inv (missing (data usual)) ∧ (missing (data usual)).SampleNext ∧ (missing (data usual)).LastSample ∧
      (missing (data usual)).nextLine ≠ (missing (data usual)).et.level ∧
      (missing (data usual)).seq.stage = .awaitDataStart) ∧
    (Inv (missing (high 39#6 usual)) ∧ (missing (high 39#6 usual)).SampleNext ∧ (missing (high 39#6 usual)).LastSample ∧
      (missing (high 39#6 usual)).nextLine ≠ (missing (high 39#6 usual)).et.level ∧
      (missing (high 39#6 usual)).seq.stage = .readBit) := by
  refine ⟨⟨?_, by decide⟩, ⟨?_, by decide⟩, ⟨?_, by decide⟩, ?_, by decide⟩ <;>
    constructor <;> constructor <;> first | decide | rfl

/-- A buffer whose bits `j` below 40 are those of `buf`, bit `i` replaced by `b`. -/
abbrev BitSet (buf new : BitVec 40) (i : Nat) (b : Bool) : Prop :=
  ∀ j, j < 40 → new.getLsbD j = if j = i then b else buf.getLsbD j

/-- `short` with the budget of the running stage as usual. -/
def shortReady : Regs := { short with tReady := 80#16 }
/-- `short` with the budget of the running stage as usual. -/
def shortData : Regs := { short with tDstart := 80#16 }
/-- `short` with the budget of the running phase as usual. -/
def shortLow : Regs := { short with tBitLow := 65#16 }
/-- `short` with the budget of the running phase as usual. -/
def shortHigh : Regs := { short with tBitHigh := 75#16 }

theorem witness_ShortBudgetFailsAtOnce :
    (Inv (ack short) ∧ (ack short).SampleNext ∧ (ack short).nextLine = (ack short).et.level ∧
      (ack short).regs.tReady.toNat < (ack short).cfg.pollUs ∧ (ack short).seq.stage = .awaitSensorAck) ∧
    (Inv (ready shortReady) ∧ (ready shortReady).SampleNext ∧
      (ready shortReady).nextLine = (ready shortReady).et.level ∧
      (ready shortReady).regs.tDstart.toNat < (ready shortReady).cfg.pollUs ∧ (ready shortReady).seq.stage = .awaitSensorReady) ∧
    (Inv (data shortData) ∧ (data shortData).SampleNext ∧
      (data shortData).nextLine = (data shortData).et.level ∧
      (data shortData).regs.tBitLow.toNat < (data shortData).cfg.pollUs ∧ (data shortData).seq.stage = .awaitDataStart) ∧
    (Inv (low shortLow) ∧ (low shortLow).SampleNext ∧ (low shortLow).nextLine = (low shortLow).et.level ∧
      (low shortLow).regs.tBitHigh.toNat < (low shortLow).cfg.pollUs ∧ (low shortLow).seq.stage = .readBit ∧
      (low shortLow).seq.sub = false) ∧
    (Inv (high 38#6 shortHigh) ∧ (high 38#6 shortHigh).SampleNext ∧
      (high 38#6 shortHigh).nextLine = (high 38#6 shortHigh).et.level ∧
      (high 38#6 shortHigh).regs.tBitLow.toNat < (high 38#6 shortHigh).cfg.pollUs ∧ (high 38#6 shortHigh).seq.stage = .readBit ∧
      (high 38#6 shortHigh).seq.sub = true ∧ (high 38#6 shortHigh).seq.bitIdx.toNat < 39 ∧
      BitSet (high 38#6 shortHigh).dec.bitBuf 0#40 38
        (decide ((high 38#6 shortHigh).dec.lowDur.toNat < (high 38#6 shortHigh).nextElapsed.toNat))) := by
  refine ⟨⟨?_, by decide⟩, ⟨?_, by decide⟩, ⟨?_, by decide⟩, ⟨?_, by decide⟩, ?_, by decide⟩ <;>
    constructor <;> constructor <;> first | decide | rfl

theorem witness_BitPhasesMeasureAndDecide :
    (Inv (low usual) ∧ (low usual).SampleNext ∧ (low usual).nextLine = (low usual).et.level ∧
      (low usual).seq.stage = .readBit ∧ (low usual).seq.sub = false ∧
      (low usual).cfg.pollUs ≤ (low usual).regs.tBitHigh.toNat) ∧
    (Inv (high 17#6 usual) ∧ (high 17#6 usual).SampleNext ∧ (high 17#6 usual).nextLine = (high 17#6 usual).et.level ∧
      (high 17#6 usual).seq.stage = .readBit ∧ (high 17#6 usual).seq.sub = true ∧
      (high 17#6 usual).seq.bitIdx.toNat < 39 ∧ (high 17#6 usual).cfg.pollUs ≤ (high 17#6 usual).regs.tBitLow.toNat) :=
  ⟨⟨inv_low, by decide⟩, inv_high, by decide⟩

/-- Both outcomes: the all-zero frame holds, one with its last bit set does not. -/
theorem witness_LastBitDeliversOrRejects :
    (Inv (high 39#6 usual) ∧ (high 39#6 usual).SampleNext ∧ (high 39#6 usual).nextLine = (high 39#6 usual).et.level ∧
      (high 39#6 usual).seq = ⟨.readBit, true, 39#6⟩ ∧
      BitSet (high 39#6 usual).dec.bitBuf 0#40 39
        (decide ((high 39#6 usual).dec.lowDur.toNat < (high 39#6 usual).nextElapsed.toNat)) ∧
      (pack 0#40).valid = true) ∧
    (BitSet 0#40 (1#40 <<< 39) 39 (decide (50 < 70)) ∧ (pack (1#40 <<< 39)).valid = false) :=
  ⟨⟨inv_last, by decide⟩, by decide⟩

theorem witness_PackMostSignificantFirst : 4 < 5 ∧ 7 < 8 ∧ 0 < 5 ∧ 0 < 8 := by decide

theorem witness_AcqRunsAsWritten : Inv served ∧ served.rst = false ∧ served.flags.busy = false :=
  ⟨inv_served, rfl, rfl⟩

/-- A sensor that answers at the first sample of every wait, but holds its last high phase for `h` samples. -/
def quick (h : Nat) : Transmission := ⟨1, 1, 1, fun _ => 1, fun i => if i = 39 then h else 1⟩

/-- Its line, for an acquisition accepted at microsecond 7: the level changes every two microseconds. -/
def quickLine (h : Nat) : List (Nat × Bool) :=
  (List.range 83).map (fun m => (18008 + 2 * m, m % 2 == 0)) ++ [(18008 + 2 * (82 + h), false)]

/-- `SeenAt` at the first sample. -/
theorem seenAt_first {stim : List (Nat × Bool)} {p t : Nat} {l : Bool} (h : stimLevel stim (t + 1 * p) = some l) :
    SeenAt stim p t l 1 := ⟨le_refl 1, fun _ h1 h2 => by omega, h⟩

/-- A transmission that leaves the all-zero frame, and one whose last bit is 1 and spoils the checksum. -/
theorem witness_TransmissionDecoded :
    (Inv (withStim idle (quickLine 1)) ∧ (withStim idle (quickLine 1)).rst = false ∧
      (withStim idle (quickLine 1)).flags.busy = false ∧ (true || false) = true ∧
      (quick 1).CarriedBy (withStim idle (quickLine 1)) ∧ (quick 1).Leaves 0#40 ∧ (pack 0#40).valid = true) ∧
    ((quick 2).CarriedBy (withStim idle (quickLine 2)) ∧ (quick 2).Leaves (1#40 <<< 39) ∧
      (pack (1#40 <<< 39)).valid = false) := by
  have lo : ∀ h, h < 3 → 1 ≤ h → ∀ i, i < 40 →
      stimLevel (quickLine h) ((quick h).bitStart 2 ((quick h).firstBit (withStim idle (quickLine h))) i + 1 * 2) =
        some true := by decide
  have hi : ∀ h, h < 3 → 1 ≤ h → ∀ i, i < 39 →
      stimLevel (quickLine h)
        ((quick h).bitStart 2 ((quick h).firstBit (withStim idle (quickLine h))) i + 1 * 2 + 1 * 2) = some false := by
    decide
  refine ⟨⟨inv_withStim _ inv_idle rfl, rfl, rfl, rfl, ?_, by decide, by decide⟩, ?_, by decide, by decide⟩
  · refine ⟨seenAt_first (by decide), by decide, seenAt_first (by decide), by decide, seenAt_first (by decide), by decide,
      fun i h => seenAt_first (lo 1 (by decide) (by decide) i h),
      fun _ _ => by show 1 * 2 ≤ 65; decide, fun i h => ?_, fun i h => ?_⟩
    · by_cases h39 : i = 39
      · subst h39
        exact seenAt_first (by decide)
      · have hq : (quick 1).high i = 1 := by simp [quick]
        rw [hq]
        exact seenAt_first (hi 1 (by decide) (by decide) i (by omega))
    · have : ∀ i, i < 40 → (quick 1).high i * (withStim idle (quickLine 1)).cfg.pollUs ≤ (withStim idle (quickLine 1)).regs.tBitHigh.toNat := by decide
      exact this i h
  · refine ⟨seenAt_first (by decide), by decide, seenAt_first (by decide), by decide, seenAt_first (by decide), by decide,
      fun i h => seenAt_first (lo 2 (by decide) (by decide) i h),
      fun _ _ => by show 1 * 2 ≤ 65; decide, fun i h => ?_, fun i h => ?_⟩
    · by_cases h39 : i = 39
      · subst h39
        refine ⟨by decide, fun j h1 h2 => ?_, by decide⟩
        obtain rfl : j = 1 := by
          have h2' : j < 2 := h2
          omega
        decide
      · have hq : (quick 2).high i = 1 := by simp [quick, h39]
        rw [hq]
        exact seenAt_first (hi 2 (by decide) (by decide) i (by omega))
    · have : ∀ i, i < 40 → (quick 2).high i * (withStim idle (quickLine 2)).cfg.pollUs ≤ (withStim idle (quickLine 2)).regs.tBitHigh.toNat := by decide
      exact this i h

/-- Two idle states that differ in the results, the hidden registers, the flags and the pad, on one line; and two whose stimulus is the
same, shifted in time. -/
theorem witness_AcquisitionHasNoResidue :
    (Inv idle ∧ Inv served ∧ idle.rst = false ∧ served.rst = false ∧ idle.flags.busy = false ∧ served.flags.busy = false ∧
      idle.cfg = served.cfg ∧ idle.regs = served.regs ∧ SameLine idle served ∧ idle.res ≠ served.res ∧ idle.pad ≠ served.pad ∧
      idle.dec ≠ served.dec) ∧
    (SameLine (falling 1) (withStim (later 2018101) [(0, true), (2018109, false)]) ∧ Inv (later 2018101) ∧
      (falling 1).env.clock ≠ (later 2018101).env.clock) := by
  refine ⟨⟨inv_idle, inv_served, rfl, rfl, rfl, rfl, rfl, rfl, .inl ⟨rfl, rfl, rfl⟩, by decide⟩,
    .inr fun x hx => ⟨false, ?_, ?_⟩, ?_, by decide⟩
  · show stimLevel [(0, true), (8, false)] (7 + x) = some false
    simp only [stimLevel]
    rw [if_pos (show 8 ≤ 7 + x by omega)]
  · show stimLevel [(0, true), (2018109, false)] (2018108 + x) = some false
    simp only [stimLevel]
    rw [if_pos (show 2018109 ≤ 2018108 + x by omega)]
  · constructor <;> constructor <;> first | decide | rfl

theorem witness_AcqFrame :
    served.flags.busy = false ∧ ∃ u v, exec (.acq true true) served = .next u ∧ runTicks 3 u = .next v :=
  ⟨rfl, _, _, rfl, rfl⟩

theorem witness_EveryCommandEnds :
    (Instr.await true 65535).WellFormed ∧ (Instr.acq true false).WellFormed ∧ Inv served ∧ served.rst = false ∧ served.flags.busy = false :=
  ⟨by decide, trivial, inv_served, rfl, rfl⟩

/-- The last sample of a standalone AWAIT, and the last microsecond of the low half of a start pulse. -/
theorem witness_InvariantKeptByStep :
    (Inv (awaiting [(0, false)]) ∧ ∃ t, step (awaiting [(0, false)]) = .next t ∧ t.flags.busy = false) ∧
    (Inv pulsing ∧ ∃ t, step pulsing = .next t ∧ t.pad = Pad.H) :=
  ⟨⟨inv_awaiting, _, rfl, rfl⟩, inv_pulsing, _, rfl, rfl⟩

theorem witness_SpecInvariantAlongRuns :
    Config.default.Legal ∧ ∃ t, Host.Core.run core 2
      ((State.initial Config.default).setBus ⟨[.write .word 0x00 0x50000003#32, .gap 5], 0#32, Seen.nothing⟩ |>.setEnv ⟨0, [], [], 0⟩) =
        .next t := ⟨by decide, _, rfl⟩

theorem witness_StepNeverStuck :
    Inv idle ∧ step (withScript idle [.read .word 0x34]) = .refused .undefinedAccess := ⟨inv_idle, rfl⟩

/-- A dutiful start of an acquisition: the gap has passed. -/
def rested : State := withScript { idle with env := { idle.env with clock := 2000000 } } [.write .word 0x00 0x50000003#32]

/-- Also after an acquisition, once `STATUS` and both readings have been read (R162). -/
theorem witness_DutifulHostNeverOverruns :
    (Inv rested ∧ rested.Safe ∧ nextActionDutiful rested = true) ∧
    nextActionDutiful (withScript { served with bus := ⟨[], 0#32, ⟨true, false, true, true⟩⟩ }
      [.write .word 0x00 0x10000000#32]) = true := by
  refine ⟨⟨?_, by decide, by decide⟩, by decide⟩
  constructor <;> constructor <;> first | decide | rfl

theorem witness_RunningCommandUndisturbed :
    pulsing.rst = false ∧ pulsing.flags.busy = true ∧ (∀ rest, pulsing.bus.script ≠ .rst true :: rest) ∧
    ∃ t, step pulsing = .next t :=
  ⟨rfl, rfl, by simp [pulsing, State.reset, State.initial], _, rfl⟩

/-- A window that opens, and a command that ends. -/
theorem witness_WindowDiscipline :
    (∃ t, step rested = .next t ∧ rested.flags.atomic = false ∧ t.flags.atomic = true) ∧
    (Inv (high 39#6 usual) ∧ ∃ t, step (high 39#6 usual) = .next t ∧ t.flags.busy = false) :=
  ⟨⟨_, rfl, rfl, rfl⟩, inv_last, _, rfl, by decide⟩

/-- The last sample of an acquisition whose frame is not all zero. -/
def delivering : State :=
  { high 39#6 usual with
    dec := ⟨50#16, 26#16, (1#40 <<< 7) ||| (1#40 <<< 39), true, false⟩, et := ⟨68#16, 75#16, false, true, 1#3⟩ }

theorem witness_ResultsOnlyFromLastBit :
    Inv delivering ∧ ∃ t, step delivering = .next t ∧ t.res ≠ delivering.res ∧ t.res ≠ Results.clear := by
  refine ⟨?_, _, rfl, by decide⟩
  constructor <;> constructor <;> first | decide | rfl

theorem witness_SequencerMovesInOrder :
    (Inv (high 17#6 usual) ∧ ∃ t, step (high 17#6 usual) = .next t ∧ t.seq = ⟨.readBit, false, 18#6⟩) ∧
    (Inv pulsing ∧ ∃ t, step pulsing = .next t ∧ t.seq = ⟨.startPulse, true, 0#6⟩) ∧
    (∀ rest, pulsing.bus.script ≠ .rst true :: rest) :=
  ⟨⟨inv_high, _, rfl, by decide⟩, ⟨inv_pulsing, _, rfl, by decide⟩, by simp [pulsing, State.reset, State.initial]⟩

/-- An acquisition under way, one that ends, a reset after it, and the next one. -/
theorem witness_AcqAloneKeepsDirection :
    (Inv pulsing ∧ DirectionKept pulsing true ∧ (∃ t, step pulsing = .next t) ∧ acquiredAfterStep pulsing true = true) ∧
    (Inv (high 39#6 usual) ∧ DirectionKept (high 39#6 usual) true ∧ ∃ t, step (high 39#6 usual) = .next t) ∧
    (DirectionKept (withScript idle [.rst true]) true ∧ acquiredAfterStep (withScript idle [.rst true]) true = false) ∧
    (Inv (withScript State.reset [.write .word 0x00 0x50000001#32]) ∧
      DirectionKept (withScript State.reset [.write .word 0x00 0x50000001#32]) false ∧
      acquiredAfterStep (withScript State.reset [.write .word 0x00 0x50000001#32]) false = true ∧
      decode 0x50000001#32 = .command (.acq true false)) := by
  refine ⟨⟨inv_pulsing, by decide, ⟨_, rfl⟩, rfl⟩, ⟨inv_last, by decide, _, rfl⟩, by decide, ?_, by decide⟩
  constructor <;> constructor <;> first | decide | rfl

theorem witness_TimeAdvancesByMicroseconds :
    (∃ t, step idle = .next t) ∧
    ∃ t, step (withScript idle [.read .word 0x04]) = .next t ∧
      (withScript idle [.read .word 0x04]).bus.script = .read .word 0x04 :: [] := ⟨⟨_, rfl⟩, _, rfl, rfl⟩

theorem witness_ResetAbandonsCommand :
    (withScript pulsing [.rst true]).cfg.Legal ∧ (withScript pulsing [.rst true]).rst = false ∧
    (withScript pulsing [.rst true]).bus.script = .rst true :: [] := by decide

/-- Every kind of next action in reset. -/
theorem witness_ResetHoldsWhileAsserted :
    Inv (held [.rst false]) ∧ (held [.rst false]).rst = true ∧
    (held [.read .word HostReg.tAck.offset]).bus.script = .read .word HostReg.tAck.offset :: [] ∧
    (held [.write .word 0x00 0x50000003#32]).bus.script = .write .word 0x00 0x50000003#32 :: [] ∧ MappedOffset 0x00 ∧
    (held [.rst true]).bus.script = .rst true :: [] ∧ (held [.rst false]).bus.script = .rst false :: [] := by
  refine ⟨?_, by decide⟩
  constructor <;> constructor <;> first | decide | rfl

end Sys2Proof.Tests
end

section
/-! What a step does with each kind of host action, one rule per action, and what the parts of an access touch. -/

namespace Sys2Proof.Machine

variable (s : State)

/-! Which register an access reaches. -/

@[simp] theorem HostReg.accessed_offset (r : HostReg) : HostReg.accessed .word r.offset = some r := by
  cases r <;> rfl

/-- Every mapped offset names a register (R38, R40). -/
theorem HostReg.exists_accessed_of_mapped {off : Nat} (h : MappedOffset off) :
    ∃ r, HostReg.accessed .word off = some r := by
  have hall : ∀ k < 49, k % 4 = 0 → (HostReg.accessed .word k).isSome := by decide
  exact Option.isSome_iff_exists.mp (hall off (Nat.lt_succ_of_le h.2) h.1)

/-! The step, by the head of the host's list. -/

theorem step_empty (h : s.bus.script = []) : step s = tick s := nextEvent_empty s h

theorem step_action {a : HostAction} {rest : List HostAction} (h : s.bus.script = a :: rest) :
    step s = hostStep a rest s := nextEvent_action s a rest h

theorem hostStep_write {size : Size} {off : Nat} {r : HostReg} (v : Word) (rest : List HostAction)
    (hr : HostReg.accessed size off = some r) :
    hostStep (.write size off v) rest s = hostWrite r v (noteWrite r (popAction rest s)) := by
  simp only [hostStep, hr]

theorem hostStep_read {size : Size} {off : Nat} {r : HostReg} (rest : List HostAction)
    (hr : HostReg.accessed size off = some r) :
    hostStep (.read size off) rest s = .next (hostRead r (popAction rest s)) := by
  simp only [hostStep, hr]

theorem hostStep_gap_zero (rest : List HostAction) : hostStep (.gap 0) rest s = .next (popAction rest s) := rfl

theorem hostStep_gap_succ (n : Nat) (rest : List HostAction) :
    hostStep (.gap (n + 1)) rest s = tick (popAction (.gap n :: rest) s) := rfl

theorem hostStep_rst (b : Bool) (rest : List HostAction) :
    hostStep (.rst b) rest s = .next (driveRst b (popAction rest s)) := rfl

/-- A write that goes on reached a register. -/
theorem hostStep_write_next {size : Size} {off : Nat} {v : Word} {rest : List HostAction} {s t : State}
    (h : hostStep (.write size off v) rest s = .next t) :
    ∃ r, HostReg.accessed size off = some r ∧ hostWrite r v (noteWrite r (popAction rest s)) = .next t := by
  cases hr : HostReg.accessed size off with
  | none => simp [hostStep, hr] at h
  | some r => exact ⟨r, rfl, hostStep_write s v rest hr ▸ h⟩

/-- A read that goes on reached a register. -/
theorem hostStep_read_next {size : Size} {off : Nat} {rest : List HostAction} {s t : State}
    (h : hostStep (.read size off) rest s = .next t) :
    ∃ r, HostReg.accessed size off = some r ∧ t = hostRead r (popAction rest s) := by
  cases hr : HostReg.accessed size off with
  | none => simp [hostStep, hr] at h
  | some r =>
    rw [hostStep_read s rest hr] at h
    cases h
    exact ⟨r, rfl, rfl⟩

/-! What the parts of an access touch. -/

/-- A write notes nothing but the record of reads. -/
theorem noteWrite_eq (r : HostReg) :
    noteWrite r s = { s with bus := { s.bus with seen := (noteWrite r s).bus.seen } } := by
  cases r <;> rfl

/-- A register write changes the host-writable registers alone. -/
theorem writeReg_eq (r : HostReg) (v : Word) : writeReg r v s = { s with regs := (writeReg r v s).regs } := by
  cases r <;> rfl

/-- A word delivered to an idle block takes no time and keeps what commands keep, whether it is legal or not. -/
theorem deliverWord_keeps {w : Word} {s t : State} (hb : s.flags.busy = false) (h : deliverWord w s = .next t) :
    Keeps s t := by
  unfold deliverWord at h
  split at h
  · exact exec_keeps hb h
  · cases h
    cases hr : s.rst with
    | true =>
      rw [writeGate_reset s _ hr]
      exact Keeps.refl s
    | false =>
      rw [writeGate_open s _ hr hb, illegalCommand_eq]
      exact ⟨rfl, rfl, rfl, rfl, rfl, rfl, rfl, rfl⟩

theorem tick_bus {s t : State} (h : tick s = .next t) : t.bus = s.bus := by
  cases hr : s.rst with
  | true =>
    rw [tick_reset s hr] at h
    cases h
    rfl
  | false => exact (tick_keeps hr h).bus

/-! Runs of the machine behind the host's interface. -/

theorem run_succ (M : Host.Core) {s t : M.State} (k : Nat) (h : M.step s = .next t) : M.run (k + 1) s = M.run k t := by
  simp only [Host.Core.run, h]

theorem core_run_succ {s t : State} (k : Nat) (h : step s = .next t) :
    Host.Core.run core (k + 1) s = Host.Core.run core k t := run_succ core k h

end Sys2Proof.Machine
end

section
/-! GAP (R67): time passes and nothing else changes. -/

namespace Sys2Proof.Machine

variable (s : State)

/-- A microsecond of GAP in an idle block passes the time and counts the gap down. -/
theorem step_gap_succ_idle {n : Nat} {rest : List HostAction} (hr : s.rst = false) (hb : s.flags.busy = false)
    (h : s.bus.script = .gap (n + 1) :: rest) :
    step s = .next (passTime 1 (popAction (.gap n :: rest) s)) := by
  rw [step_action s h, hostStep_gap_succ]
  exact tick_idle (popAction (.gap n :: rest) s) hr hb

theorem step_gap_zero {rest : List HostAction} (h : s.bus.script = .gap 0 :: rest) :
    step s = .next (popAction rest s) := by
  rw [step_action s h, hostStep_gap_zero]

/-- The whole of GAP in an idle block: induction on the gap, one microsecond a step. -/
theorem run_gap_idle (n : Nat) {s : State} {rest : List HostAction} (hr : s.rst = false) (hb : s.flags.busy = false)
    (h : s.bus.script = .gap n :: rest) :
    Host.Core.run core (n + 1) s = .next (passTime n (popAction rest s)) := by
  induction n generalizing s with
  | zero =>
    rw [core_run_succ 0 (step_gap_zero s h)]
    rfl
  | succ n ih =>
    have hnext := ih (s := passTime 1 (popAction (.gap n :: rest) s)) hr hb rfl
    rw [core_run_succ (n + 1) (step_gap_succ_idle s hr hb h), hnext]
    simp [passTime_eq, popAction_eq, Nat.add_assoc, Nat.add_comm 1 n]

/-- A microsecond of GAP is the tick of the block, whatever runs, with the gap counted down. -/
theorem step_gap_succ_of_tick {n : Nat} {rest : List HostAction} {s t : State} (ht : tick s = .next t)
    (h : s.bus.script = .gap (n + 1) :: rest) :
    step s = .next { t with bus := { t.bus with script := .gap n :: rest } } := by
  rw [step_action s h, hostStep_gap_succ, popAction, tick_setBus _ ht, tick_bus ht, State.setBus]

/-- Settles O17: in an idle block by `run_gap_idle`; elsewhere because a tick does not look at the host's list. -/
theorem gapPassesTime : Obligations.GapPassesTime := by
  refine ⟨fun n s rest hr hb h => run_gap_idle n hr hb h, fun s t ht => ?_, fun s rest h => step_gap_zero s h⟩
  exact ⟨tick_bus ht, fun h => (step_empty s h).trans ht, fun n rest h => step_gap_succ_of_tick ht h⟩

end Sys2Proof.Machine
end

section
/-! Time (R8, R41): how far each host action moves `now`. -/

namespace Sys2Proof.Machine

variable (s : State)

/-- A tick stands still in reset and else takes one microsecond. -/
theorem tick_now {s t : State} (h : tick s = .next t) : t.now = s.now ∨ t.now = s.now + 1 := by
  cases hr : s.rst with
  | true =>
    rw [tick_reset s hr] at h
    cases h
    exact .inl rfl
  | false => exact .inr (tick_keeps hr h).now

/-- A register write takes no time, whether it has an effect, is dropped, or meets a block in reset (R41). -/
theorem hostWrite_now {r : HostReg} {v : Word} {s t : State} (h : hostWrite r v s = .next t) : t.now = s.now := by
  cases hr : s.rst with
  | true =>
    rw [hostWrite_reset s r v hr] at h
    cases h
    rfl
  | false =>
    cases hb : s.flags.busy with
    | true =>
      rw [hostWrite_busy s r v hr hb] at h
      cases h
      rfl
    | false =>
      by_cases hc : r = .cmd
      · subst hc
        exact (deliverWord_keeps hb h).now
      · rw [hostWrite_register s r v hc, writeGate_open s _ hr hb] at h
        cases h
        rw [writeReg_eq]

theorem hostStep_write_now {size : Size} {off : Nat} {v : Word} {rest : List HostAction} {s t : State}
    (h : hostStep (.write size off v) rest s = .next t) : t.now = s.now := by
  obtain ⟨r, -, hw⟩ := hostStep_write_next h
  rw [hostWrite_now hw, noteWrite_eq]
  rfl

theorem hostStep_read_now {size : Size} {off : Nat} {rest : List HostAction} {s t : State}
    (h : hostStep (.read size off) rest s = .next t) : t.now = s.now := by
  obtain ⟨r, -, rfl⟩ := hostStep_read_next h
  rfl

/-- Driving `rst` keeps the time, unless it asserts `rst` and so restarts it. -/
theorem driveRst_now (b : Bool) : (driveRst b s).now = s.now ∨ ((driveRst b s).now = 0 ∧ b = true) := by
  by_cases hb : b = s.rst
  · subst hb
    exact .inl (congrArg State.now (driveRst_same s))
  · cases b with
    | true =>
      have hr : s.rst = false := by simpa using Ne.symm hb
      exact .inr ⟨by rw [driveRst_assert s hr]; rfl, rfl⟩
    | false =>
      have hr : s.rst = true := by simpa using Ne.symm hb
      exact .inl (by rw [driveRst_release s hr, releaseReset_eq])

/-- The time any host action can take, in the block's count. -/
theorem hostStep_now {a : HostAction} {rest : List HostAction} {s t : State} (h : hostStep a rest s = .next t) :
    t.now = s.now ∨ t.now = s.now + 1 ∨ (t.now = 0 ∧ a = .rst true) := by
  cases a with
  | write size off v => exact .inl (hostStep_write_now h)
  | read size off => exact .inl (hostStep_read_now h)
  | wait =>
    simp only [hostStep] at h
    split at h
    · exact (tick_now h).imp_right .inl
    · cases h
      exact .inl rfl
  | gap n =>
    cases n with
    | zero =>
      cases h
      exact .inl rfl
    | succ m =>
      rw [hostStep_gap_succ] at h
      exact (tick_now h).imp_right .inl
  | rst b =>
    cases h
    exact (driveRst_now (popAction rest s) b).imp_right fun ⟨h0, hb⟩ => .inr ⟨h0, by rw [hb]⟩

/-- Settles O51, by the action at the head of the host's list. -/
theorem timeAdvancesByMicroseconds : Obligations.TimeAdvancesByMicroseconds := by
  constructor
  · intro s t h
    cases hs : s.bus.script with
    | nil => exact (tick_now (step_empty s hs ▸ h)).imp_right .inl
    | cons a rest =>
      obtain h0 | h1 | ⟨hz, ha⟩ := hostStep_now (step_action s hs ▸ h)
      · exact .inl h0
      · exact .inr (.inl h1)
      · exact .inr (.inr ⟨hz, rest, by rw [ha]⟩)
  · rintro s t size off v rest h (hs | hs)
    · exact hostStep_write_now (step_action s hs ▸ h)
    · exact hostStep_read_now (step_action s hs ▸ h)

end Sys2Proof.Machine
end

section
/-! Reset asserted (R148): the block stands at its reset values. -/

namespace Sys2Proof.Machine

variable (s : State)

/-- A register shows the block alone: not `rst`, not the bus, not the environment. -/
theorem readReg_outside (r : HostReg) (x : Bool) (b : Bus) (e : Env) :
    readReg r { s with rst := x, bus := b, env := e } = readReg r s := by
  cases r <;> rfl

/-- `s` with `rst` asserted: every element of the block at its reset value (R148). -/
def HeldInReset (s : State) : Prop := s = { State.initial s.cfg with rst := true, bus := s.bus, env := s.env }

theorem Inv.heldInReset {s : State} (hi : Inv s) (hr : s.rst = true) : HeldInReset s := hi.shape.resetHeld hr

section
variable {s : State} (hs : HeldInReset s)
include hs

theorem HeldInReset.rst_eq : s.rst = true := congrArg State.rst hs

theorem HeldInReset.flags_done : s.flags.done = false := congrArg (fun u => u.flags.done) hs

/-- Every register reads its reset value. -/
theorem HeldInReset.readReg_eq (r : HostReg) : readReg r s = readReg r (State.initial s.cfg) :=
  (congrArg (readReg r) hs).trans (readReg_outside _ r _ _ _)

theorem HeldInReset.step_read {r : HostReg} {rest : List HostAction} (h : s.bus.script = .read .word r.offset :: rest) :
    step s = .next { s with bus := { s.bus with script := rest, rdata := readReg r (State.initial s.cfg) } } := by
  have hread : readReg r (popAction rest s) = readReg r s := readReg_outside s r _ _ _
  have hseen : noteRead r (popAction rest s) = s.bus.seen := noteRead_notDone (popAction rest s) r hs.flags_done
  rw [step_action s h, hostStep_read s rest (HostReg.accessed_offset r), hostRead_eq, hread, hseen, hs.readReg_eq]
  rfl

/-- A write leaves no trace but the host's own record. -/
theorem HeldInReset.step_write {off : Nat} {v : Word} {rest : List HostAction} (ho : MappedOffset off)
    (h : s.bus.script = .write .word off v :: rest) :
    ∃ t : State, step s = .next t ∧ t = { s with bus := { s.bus with script := rest, seen := t.bus.seen } } := by
  obtain ⟨r, hreg⟩ := HostReg.exists_accessed_of_mapped ho
  have heq := noteWrite_eq (popAction rest s) r
  have hr : (noteWrite r (popAction rest s)).rst = true := (congrArg State.rst heq).trans hs.rst_eq
  exact ⟨noteWrite r (popAction rest s),
    by rw [step_action s h, hostStep_write s v rest hreg, hostWrite_reset _ r v hr], heq⟩

theorem HeldInReset.step_assert {rest : List HostAction} (h : s.bus.script = .rst true :: rest) :
    step s = .next (popAction rest s) := by
  have hd : driveRst true (popAction rest s) = popAction rest s := by
    rw [← hs.rst_eq]
    exact driveRst_same (popAction rest s)
  rw [step_action s h, hostStep_rst, hd]

/-- The release leaves the reset state. -/
theorem HeldInReset.step_release {rest : List HostAction} (h : s.bus.script = .rst false :: rest) :
    step s = .next
      { State.initial s.cfg with
        bus := { s.bus with script := rest }
        env := { s.env with lastEnd := s.env.clock } } := by
  rw [step_action s h, hostStep_rst, driveRst_release (popAction rest s) hs.rst_eq]
  exact congrArg (fun u => Host.Outcome.next (releaseReset (popAction rest u))) hs

end

/-- Settles O54: the invariant pins the whole block in reset, and each action keeps it there. -/
theorem resetHoldsWhileAsserted : Obligations.ResetHoldsWhileAsserted := by
  intro s hi hr
  have hs := hi.heldInReset hr
  exact ⟨hs, fun r rest h => hs.step_read h, fun off v rest ho h => hs.step_write ho h, tick_reset s hr,
    fun rest h => hs.step_assert h, fun rest h => hs.step_release h⟩

end Sys2Proof.Machine
end

section
/-! What a step can do: the step's inversion lemma and the tick's, from which the statements about every step are derived. -/

namespace Sys2Proof.Machine

variable (s : State)

/-- The register map has `CMD` at offset 0 and nowhere else (R38). -/
theorem HostReg.accessed_eq_cmd {size : Size} {off : Nat} (h : HostReg.accessed size off = some .cmd) :
    size = .word ∧ off = 0 := by
  cases size with
  | word =>
    have hf := List.find?_some (show HostReg.all.find? (fun r => r.offset == off) = some .cmd from h)
    exact ⟨rfl, (beq_iff_eq.mp hf).symm⟩
  | half => cases h
  | byte => cases h

/-- A write to `CMD` delivers its word, the write consumed and the record of reads started afresh (R42). -/
theorem step_cmd {w : Word} {rest : List HostAction} (h : s.bus.script = .write .word 0x00 w :: rest) :
    step s = deliverWord w { s with bus := { s.bus with script := rest, seen := Seen.nothing } } :=
  step_action s h

theorem deliverWord_command {w : Word} {i : Instr} (h : decode w = .command i) : deliverWord w s = exec i s := by
  simp only [deliverWord, h]

theorem deliverWord_illegal {w : Word} {r : Reject} (h : decode w = .illegal r) :
    deliverWord w s = .next (writeGate illegalCommand s) := by
  simp only [deliverWord, h]

/-- A microsecond with another host's end of the bus is the block's own microsecond, that end put back. -/
theorem tick_of_setBus {s t : State} {b : Bus} (h : tick (s.setBus b) = .next t) :
    ∃ u, tick s = .next u ∧ t = u.setBus b := by
  have hb : t.bus = b := tick_bus h
  exact ⟨t.setBus s.bus, tick_setBus (s := s.setBus b) s.bus h, by rw [← hb]; rfl⟩

/-- What one step can do to a state, the host's end of the bus apart. -/
inductive StepEffect (s : State) : State → Prop
  /-- A read, a `WAIT` that is over, an empty `GAP`, a write in reset. -/
  | outside (b : Bus) : StepEffect s (s.setBus b)
  /-- A microsecond passes. -/
  | passes (b : Bus) {u : State} (ht : tick s = .next u) : StepEffect s (u.setBus b)
  /-- The platform drives `rst` (R148). -/
  | drivesRst (b : Bus) {level : Bool} {rest : List HostAction} (hs : s.bus.script = .rst level :: rest) :
      StepEffect s (driveRst level (s.setBus b))
  /-- A write while busy (R43). -/
  | dropped (b : Bus) (hr : s.rst = false) (hb : s.flags.busy = true) : StepEffect s (overrun (s.setBus b))
  /-- A write to a register other than `CMD` (R42). -/
  | writes (b : Bus) (r : HostReg) (v : Word) (hr : s.rst = false) (hb : s.flags.busy = false) :
      StepEffect s (writeReg r v (s.setBus b))
  /-- A command is accepted (R53). -/
  | accepts (b : Bus) {w : Word} {rest : List HostAction} {i : Instr} {t : State}
      (hs : s.bus.script = .write .word 0x00 w :: rest) (hd : decode w = .command i)
      (hr : s.rst = false) (hb : s.flags.busy = false) (he : exec i (s.setBus b) = .next t) : StepEffect s t
  /-- An illegal word is reported (R63). -/
  | reports (b : Bus) {w : Word} {rest : List HostAction} {why : Reject}
      (hs : s.bus.script = .write .word 0x00 w :: rest) (hd : decode w = .illegal why) (hr : s.rst = false) (hb : s.flags.busy = false) : StepEffect s (illegalCommand (s.setBus b))

/-- A tick that a host action lets pass. -/
theorem StepEffect.of_tick {s t : State} {b : Bus} (h : tick (s.setBus b) = .next t) : StepEffect s t := by
  obtain ⟨u, hu, rfl⟩ := tick_of_setBus h
  exact .passes b hu

/-- The effect of a register write that goes on. -/
theorem StepEffect.of_write {size : Size} {off : Nat} {v : Word} {rest : List HostAction} {s t : State}
    (hs : s.bus.script = .write size off v :: rest) (h : hostStep (.write size off v) rest s = .next t) :
    StepEffect s t := by
  obtain ⟨r, ha, hw⟩ := hostStep_write_next h
  obtain ⟨b, hb⟩ : ∃ b, noteWrite r (popAction rest s) = s.setBus b := ⟨_, noteWrite_eq (popAction rest s) r⟩
  rw [hb] at hw
  cases hr : s.rst with
  | true =>
    rw [hostWrite_reset (s.setBus b) r v hr] at hw
    cases hw
    exact .outside b
  | false =>
    cases hbusy : s.flags.busy with
    | true =>
      rw [hostWrite_busy (s.setBus b) r v hr hbusy] at hw
      cases hw
      exact .dropped b hr hbusy
    | false =>
      by_cases hc : r = .cmd
      · subst hc
        obtain ⟨rfl, rfl⟩ := HostReg.accessed_eq_cmd ha
        change deliverWord v (s.setBus b) = .next t at hw
        cases hd : decode v with
        | command i => exact .accepts b hs hd hr hbusy (deliverWord_command (s.setBus b) hd ▸ hw)
        | illegal _ =>
          rw [deliverWord_illegal (s.setBus b) hd, writeGate_open (s.setBus b) _ hr hbusy] at hw
          cases hw
          exact .reports b hs hd hr hbusy
      · rw [hostWrite_register (s.setBus b) r v hc, writeGate_open (s.setBus b) _ hr hbusy] at hw
        cases hw
        exact .writes b r v hr hbusy

/-- The inversion of a step, by the action at the head of the host's list. -/
theorem step_effect {s t : State} (h : step s = .next t) : StepEffect s t := by
  cases hs : s.bus.script with
  | nil => exact .of_tick (b := s.bus) (step_empty s hs ▸ h)
  | cons a rest =>
    rw [step_action s hs] at h
    cases a with
    | write size off v => exact .of_write hs h
    | read size off =>
      obtain ⟨r, -, rfl⟩ := hostStep_read_next h
      exact .outside _
    | wait =>
      unfold hostStep at h
      dsimp only at h
      split at h
      · exact .of_tick h
      · cases h
        exact .outside _
    | gap n =>
      cases n with
      | zero =>
        cases h
        exact .outside _
      | succ n => exact .of_tick h
    | rst level =>
      cases h
      exact .drivesRst _ hs

/-- What a microsecond can do to a state. -/
inductive TickEffect (s : State) : State → Prop
  | held (hr : s.rst = true) : TickEffect s (holdReset s)
  | idles (hr : s.rst = false) (hb : s.flags.busy = false) : TickEffect s (passTime 1 s)
  /-- A running wait counts or samples (R79). -/
  | polls (hr : s.rst = false) (hb : s.flags.busy = true) (hrun : s.et.run = true)
      (hg : s.seq.stage = .idle ∨ s.seq.stage.Waits) :
      TickEffect s (pollTick waitMet waitTimedOut (passTime 1 s))
  /-- The start pulse goes on (R97). -/
  | pulses (hr : s.rst = false) (hb : s.flags.busy = true) (hg : s.seq.stage = .startPulse)
      (hd : s.dly ≠ 0#16) :
      TickEffect s (startPulseTick (passTime 1 s))
  /-- Checksum is left at once (R13, log 12). -/
  | checks (hr : s.rst = false) (hb : s.flags.busy = true) (hg : s.seq.stage = .checksum) :
      TickEffect s (checkFrame (passTime 1 s))
  /-- Done is left at once (R13, log 12). -/
  | commits (hr : s.rst = false) (hb : s.flags.busy = true) (hg : s.seq.stage = .done) :
      TickEffect s (commit (passTime 1 s))

/-- A wait that goes on was running. -/
theorem TickEffect.of_waitTick {s t : State} (hr : s.rst = false) (hb : s.flags.busy = true)
    (hg : s.seq.stage = .idle ∨ s.seq.stage.Waits) (h : waitTick (passTime 1 s) = .next t) : TickEffect s t := by
  unfold waitTick at h
  split at h
  · next hrun =>
    cases h
    exact .polls hr hb hrun hg
  · cases h

/-- The inversion of a tick, by the stage of a busy block. -/
theorem tick_effect {s t : State} (h : tick s = .next t) : TickEffect s t := by
  cases hr : s.rst with
  | true =>
    rw [tick_reset s hr] at h
    cases h
    exact .held hr
  | false =>
    cases hb : s.flags.busy with
    | false =>
      rw [tick_idle s hr hb] at h
      cases h
      exact .idles hr hb
    | true =>
      rw [tick_busy s hr hb] at h
      unfold busyTick at h
      split at h <;> rename_i hg <;> change s.seq.stage = _ at hg
      · exact .of_waitTick hr hb (.inl hg) h
      · split at h
        · cases h
        · next hd =>
          cases h
          exact .pulses hr hb hg hd
      · exact .of_waitTick hr hb (.inr (.inl hg)) h
      · exact .of_waitTick hr hb (.inr (.inr (.inl hg))) h
      · exact .of_waitTick hr hb (.inr (.inr (.inr (.inl hg)))) h
      · exact .of_waitTick hr hb (.inr (.inr (.inr (.inr hg)))) h
      · cases h
        exact .checks hr hb hg
      · cases h
        exact .commits hr hb hg

end Sys2Proof.Machine
end

section
/-! The acceptance of a command (R53): the whole next state, one case per way it can go. -/

namespace Sys2Proof.Machine

variable (s : State)

/-- An operand that fits its field is its value (R57). -/
theorem ofNat16_toNat {n : Nat} (h : n < 65536) : (BitVec.ofNat 16 n).toNat = n := Nat.mod_eq_of_lt h

/-- AWAIT with a budget of at least one polling interval (R82). -/
theorem exec_await_fits (hr : s.rst = false) (hb : s.flags.busy = false) (level : Bool) {budget : Nat}
    (h : s.cfg.pollUs ≤ (BitVec.ofNat 16 budget).toNat) :
    exec (.await level budget) s = .next
      { s with
        res := Results.clear
        err := ErrReg.clear
        et := ⟨0#16, BitVec.ofNat 16 budget, level, true, 0#3⟩
        flags := { s.flags with busy := true, done := false } } := by
  rw [exec_await s hr hb, beginAwait_fits (accept s) level budget h, accept_eq]

/-- AWAIT with a budget below the polling interval (R83). -/
theorem exec_await_short (hr : s.rst = false) (hb : s.flags.busy = false) (level : Bool) {budget : Nat}
    (h : ¬ s.cfg.pollUs ≤ (BitVec.ofNat 16 budget).toNat) :
    exec (.await level budget) s = .next
      { s with
        res := Results.clear
        err := ⟨.timeoutError, 0#6⟩
        et := ⟨0#16, BitVec.ofNat 16 budget, level, false, 0#3⟩
        flags := { s.flags with busy := false, done := true } } := by
  rw [exec_await s hr hb, beginAwait_short (accept s) level budget h, accept_eq]

/-- ACQ with a reading requested (R94, R97). -/
theorem exec_acq_wanted (hr : s.rst = false) (hb : s.flags.busy = false) {wantH wantT : Bool}
    (h : (wantH || wantT) = true) :
    exec (.acq wantH wantT) s = .next
      { s with
        dec := { s.dec with wantH := wantH, wantT := wantT, bitBuf := 0#40 }
        res := Results.clear
        et := { s.et with elapsed := 0#16 }
        err := ErrReg.clear
        flags := { s.flags with busy := true, done := false, atomic := true }
        seq := ⟨.startPulse, false, 0#6⟩
        dly := BitVec.ofNat 16 s.cfg.startLowUs
        pad := Pad.L
        env := { s.env with drives := (s.env.clock, Pad.L) :: s.env.drives } } := by
  rw [exec_acq s hr hb, beginAcq_wanted (accept s) wantH wantT h, accept_eq]

/-- Settles O21, by whether the budget holds one sample. -/
theorem awaitStarts : Obligations.AwaitStarts := by
  intro s level budget hr hb hw
  constructor
  · intro h
    exact exec_await_fits s hr hb level (by rwa [ofNat16_toNat hw])
  · intro h
    exact exec_await_short s hr hb level (by rwa [ofNat16_toNat hw, Nat.not_le])

/-- Settles O26. -/
theorem acqStarts : Obligations.AcqStarts := fun s _ _ hr hb h => exec_acq_wanted s hr hb h

/-- What an accepted command leaves. -/
inductive Accepted (s : State) : Instr → State → Prop
  /-- DRVL, DRVH, REL: one of the three pad values is driven (R86 to R89). -/
  | drives {i : Instr} (p : Pad) (hp : p.oe = false → p.out = false) (hi : ∀ level budget, i ≠ .await level budget) :
      Accepted s i
        { s with
          pad := p, res := Results.clear, err := ErrReg.clear
          et := { s.et with elapsed := 0#16 }
          flags := { s.flags with busy := false, done := true }
          env := { s.env with drives := (s.env.clock, p) :: s.env.drives } }
  /-- AWAIT starts its poll loop (R82). -/
  | polls (level : Bool) {budget : Nat} (h : s.cfg.pollUs ≤ (BitVec.ofNat 16 budget).toNat) :
      Accepted s (.await level budget)
        { s with
          res := Results.clear
          err := ErrReg.clear
          et := ⟨0#16, BitVec.ofNat 16 budget, level, true, 0#3⟩
          flags := { s.flags with busy := true, done := false } }
  /-- AWAIT is over at once (R83). -/
  | timesOut (level : Bool) {budget : Nat} (h : ¬ s.cfg.pollUs ≤ (BitVec.ofNat 16 budget).toNat) :
      Accepted s (.await level budget)
        { s with
          res := Results.clear
          err := ⟨.timeoutError, 0#6⟩
          et := ⟨0#16, BitVec.ofNat 16 budget, level, false, 0#3⟩
          flags := { s.flags with busy := false, done := true } }
  /-- ACQ opens the window and starts the pulse (R94). -/
  | pulses {wantH wantT : Bool} (h : (wantH || wantT) = true) :
      Accepted s (.acq wantH wantT)
        { s with
          dec := { s.dec with wantH := wantH, wantT := wantT, bitBuf := 0#40 }
          res := Results.clear
          et := { s.et with elapsed := 0#16 }
          err := ErrReg.clear
          flags := { s.flags with busy := true, done := false, atomic := true }
          seq := ⟨.startPulse, false, 0#6⟩
          dly := BitVec.ofNat 16 s.cfg.startLowUs
          pad := Pad.L
          env := { s.env with drives := (s.env.clock, Pad.L) :: s.env.drives } }
  /-- ACQ with nothing requested (R95). -/
  | wantsNothing :
      Accepted s (.acq false false)
        { s with
          dec := { s.dec with wantH := false, wantT := false }
          res := Results.clear
          et := { s.et with elapsed := 0#16 }
          err := ⟨.invalidArgument, 0#6⟩
          flags := { s.flags with busy := false, done := true } }

/-- The inversion of exec on a block that accepts. -/
theorem exec_accepted {i : Instr} {s t : State} (hr : s.rst = false) (hb : s.flags.busy = false)
    (h : exec i s = .next t) : Accepted s i t := by
  cases i with
  | drvl =>
    rw [exec_drvl s hr hb, complete_drivePad_accept] at h
    cases h
    exact .drives Pad.L (by decide) (by simp)
  | drvh =>
    rw [exec_drvh s hr hb, complete_drivePad_accept] at h
    cases h
    exact .drives Pad.H (by decide) (by simp)
  | rel =>
    rw [exec_rel s hr hb, complete_drivePad_accept] at h
    cases h
    exact .drives Pad.Z (by decide) (by simp)
  | await level budget =>
    by_cases hf : s.cfg.pollUs ≤ (BitVec.ofNat 16 budget).toNat
    · rw [exec_await_fits s hr hb level hf] at h
      cases h
      exact .polls level hf
    · rw [exec_await_short s hr hb level hf] at h
      cases h
      exact .timesOut level hf
  | acq wantH wantT =>
    by_cases hw : (wantH || wantT) = true
    · rw [exec_acq_wanted s hr hb hw] at h
      cases h
      exact .pulses hw
    · obtain ⟨rfl, rfl⟩ : wantH = false ∧ wantT = false := by simpa using hw
      rw [exec_acq s hr hb, beginAcq_none, accept_eq] at h
      cases h
      exact .wantsNothing

/-- Acceptance clears the results, whatever the command (R53). -/
theorem Accepted.res {i : Instr} {s t : State} (h : Accepted s i t) : t.res = Results.clear := by
  cases h <;> rfl

/-- A word delivered to a block that accepts clears the results, legal or not (R53, R63). -/
theorem deliverWord_res {w : Word} {s t : State} (hr : s.rst = false) (hb : s.flags.busy = false)
    (h : deliverWord w s = .next t) : t.res = Results.clear := by
  cases hd : decode w with
  | command i =>
    rw [deliverWord_command s hd] at h
    exact (exec_accepted hr hb h).res
  | illegal _ =>
    rw [deliverWord_illegal s hd, writeGate_open s _ hr hb, illegalCommand_eq] at h
    cases h
    rfl

end Sys2Proof.Machine
end

section
/-! The register interface: delivery of command words, the register map, `STATUS`, and what an access touches. -/

namespace Sys2Proof.Machine

variable (s : State)

/-- Settles O7: a write to `CMD` delivers its word, and `withFetchWord` places such a write. -/
theorem stepRunsDecodedCommand : Obligations.StepRunsDecodedCommand := by
  intro s w i hd
  have hw : BitVec.ofNat 32 (w.toNat % 2 ^ 32) = w := by
    rw [Nat.mod_eq_of_lt w.isLt, BitVec.ofNat_toNat, BitVec.setWidth_eq]
  constructor
  · intro rest hs
    rw [step_cmd s hs, deliverWord_command _ hd]
  · rw [State.withFetchWord, hw, step_cmd (placeCommand w s) rfl, deliverWord_command _ hd]
    rfl

/-! Reads. -/

@[simp] theorem zext32_toNat (d : BitVec 16) : (zext32 d).toNat = d.toNat :=
  BitVec.toNat_setWidth_of_le (by decide)

@[simp] theorem sext32_toInt (d : BitVec 16) : (sext32 d).toInt = d.toInt :=
  BitVec.toInt_signExtend_of_le (by decide)

/-- The mapped offsets are those of the 13 registers (R38, R40). -/
theorem mappedOffset_iff (off : Nat) : MappedOffset off ↔ ∃ r ∈ HostReg.all, r.offset = off := by
  constructor
  · intro ho
    obtain ⟨r, hr⟩ := HostReg.exists_accessed_of_mapped ho
    change HostReg.all.find? (fun r => r.offset == off) = some r at hr
    exact ⟨r, List.mem_of_find?_eq_some hr, by simpa using List.find?_some hr⟩
  · have hall : ∀ r ∈ HostReg.all, MappedOffset r.offset := by decide
    rintro ⟨r, hr, rfl⟩
    exact hall r hr

/-- `FRAME_LO` as a word whose width is the sum of its lanes, so that it can be cut at a lane (R39). -/
theorem Frame.lo_extractLsb' (f : Frame) (start len : Nat) :
    f.lo.extractLsb' start len = (f.b3 ++ f.b2 ++ f.b1 ++ f.b0).extractLsb' start len := rfl

/-- Byte lane `k` of `FRAME_LO` holds byte `k` (R39). -/
theorem Frame.lo_byte (f : Frame) {k : Nat} (hk : k < 4) : f.lo.extractLsb' (8 * k) 8 = f.byte k := by
  interval_cases k <;>
    simp (disch := decide) only [Frame.lo_extractLsb', BitVec.extractLsb'_append_eq_of_le,
      BitVec.extractLsb'_append_eq_of_add_le] <;>
    simp [Frame.byte]

/-- Settles O14. -/
theorem registerMapReads : Obligations.RegisterMapReads :=
  ⟨rfl, mappedOffset_iff, fun s =>
    ⟨rfl, rfl, zext32_toNat _, zext32_toNat _, zext32_toNat _, zext32_toNat _, zext32_toNat _, zext32_toNat _,
      fun _ hk => s.res.frame.lo_byte hk, BitVec.toNat_setWidth_of_le (by decide), sext32_toInt _, sext32_toInt _⟩⟩

/-- Settles O52: the reset state is closed, and every element of it evaluates. -/
theorem resetValues : Obligations.ResetValues := by
  unfold Obligations.ResetValues
  decide

/-! Writes to registers other than `CMD`. -/

theorem step_write_register {r : HostReg} {v : Word} {rest : List HostAction} (hc : r ≠ .cmd)
    (h : s.bus.script = .write .word r.offset v :: rest) :
    step s = .next (writeGate (writeReg r v) (popAction rest s)) := by
  rw [step_action s h, hostStep_write s v rest (HostReg.accessed_offset r), noteWrite_other _ r hc,
    hostWrite_register _ r v hc]

/-- The registers of the map that the host can only read (R38). -/
abbrev HostReg.ReadOnly (r : HostReg) : Prop := r ∈ [HostReg.status, .dur, .frameLo, .frameHi, .hum, .temp]

/-- `PIN` and the five budgets (R31, R32). -/
abbrev HostReg.Writable (r : HostReg) : Prop := r ∈ [HostReg.pin, .tAck, .tReady, .tDstart, .tBitLow, .tBitHigh]

theorem writeReg_readOnly {r : HostReg} (v : Word) (h : r.ReadOnly) : writeReg r v s = s := by
  cases r with
  | status | dur | frameLo | frameHi | hum | temp => rfl
  | _ => exact absurd h (by decide)

/-- A write to a read-only register is consumed and changes nothing (R42). -/
theorem step_write_readOnly {r : HostReg} {v : Word} {rest : List HostAction} (hro : r.ReadOnly)
    (hb : s.flags.busy = false) (h : s.bus.script = .write .word r.offset v :: rest) :
    step s = .next (popAction rest s) := by
  have hc : r ≠ .cmd := by rintro rfl; exact absurd hro (by decide)
  rw [step_write_register s hc h]
  cases hr : s.rst with
  | true => rw [writeGate_reset (popAction rest s) _ hr]
  | false => rw [writeGate_open (popAction rest s) _ hr hb, writeReg_readOnly _ v hro]

theorem pinBits_toNat (p : Nat) (v : Word) : (pinBits p v).toNat = v.toNat % 2 ^ p :=
  Nat.mod_eq_of_lt (Nat.lt_of_le_of_lt (Nat.mod_le _ _) v.isLt)

theorem budgetBits_toNat (v : Word) : (budgetBits v).toNat = v.toNat % 2 ^ 16 := by
  rw [budgetBits, BitVec.extractLsb'_toNat, Nat.shiftRight_zero]

/-- A writable register reads the implemented bits of what was written (R31, R32). -/
theorem readReg_writeReg_self {r : HostReg} (v : Word) (h : r.Writable) :
    (readReg r (writeReg r v s)).toNat = if r = .pin then v.toNat % 2 ^ s.cfg.pinW else v.toNat % 2 ^ 16 := by
  have hbudget : (zext32 (budgetBits v)).toNat = v.toNat % 2 ^ 16 := by rw [zext32_toNat, budgetBits_toNat]
  cases r with
  | pin => exact pinBits_toNat s.cfg.pinW v
  | tAck | tReady | tDstart | tBitLow | tBitHigh => exact hbudget
  | _ => exact absurd h (by decide)

/-- A write to one register is not seen in another. -/
theorem readReg_writeReg_other {r r' : HostReg} (v : Word) (h : r' ≠ r) :
    readReg r' (writeReg r v s) = readReg r' s := by
  cases r <;> cases r' <;> first | rfl | exact absurd rfl h

/-- Settles O11: reads by `hostRead`, writes by the kind of register. -/
theorem accessesTouchOnlyTheirRegister : Obligations.AccessesTouchOnlyTheirRegister := by
  refine ⟨fun s r rest h => ?_, fun s r v rest hro hb h => step_write_readOnly s hro hb h,
    fun s r v rest hw hr hb h => ?_⟩
  · have hread : readReg r (popAction rest s) = readReg r s := readReg_outside s r _ _ _
    rw [step_action s h, hostStep_read s rest (HostReg.accessed_offset r), hostRead_eq, hread]
    rfl
  · have hc : r ≠ .cmd := by rintro rfl; exact absurd hw (by decide)
    refine ⟨writeReg r v (popAction rest s), ?_, writeReg_eq _ r v, readReg_writeReg_self _ v hw, fun r' hr' => ?_⟩
    · rw [step_write_register s hc h, writeGate_open (popAction rest s) _ hr hb]
    · rw [readReg_writeReg_other _ v hr']
      exact readReg_outside s r' _ _ _

/-! `STATUS`. -/

/-- `STATUS` as a word whose width is the sum of its fields, so that it can be cut at a field (R29). -/
theorem State.statusWord_extractLsb' (start len : Nat) :
    s.statusWord.extractLsb' start len =
      (0#2 ++ s.err.info ++ 0#1 ++ s.err.code.code ++ BitVec.ofBool s.pad.oe ++ BitVec.ofBool s.pad.out ++
        s.seq.bitIdx ++ BitVec.ofBool s.seq.sub ++ s.seq.stage.code ++ 0#2 ++
        BitVec.ofBool s.res.tvalid ++ BitVec.ofBool s.res.hvalid ++ BitVec.ofBool s.flags.ovr ++
        BitVec.ofBool s.flags.atomic ++ BitVec.ofBool s.flags.done ++ BitVec.ofBool s.flags.busy).extractLsb' start len :=
  rfl

/-- A bit of a register is a field of width 1. -/
theorem getLsbD_eq_extractLsb' (w : Word) (i : Nat) : w.getLsbD i = (w.extractLsb' i 1).getLsbD 0 := by
  simp

/-- Code 7 is never shown (R125). -/
theorem ErrCode.code_ne_seven (c : ErrCode) : c.code ≠ 7#3 := by
  cases c <;> decide

/-- Settles O12: the codes by evaluation, the fields by cutting the word at each of them. -/
theorem statusFields : Obligations.StatusFields := by
  refine ⟨by decide, rfl, rfl, fun s v rest hb h => step_write_readOnly s (r := .status) (by decide) hb h, fun s => ?_⟩
  have hcode := s.err.code.code_ne_seven
  simp (disch := decide) only [readReg, getLsbD_eq_extractLsb', State.statusWord_extractLsb',
    BitVec.extractLsb'_append_eq_of_le, BitVec.extractLsb'_append_eq_of_add_le]
  simp [hcode]

end Sys2Proof.Machine
end

section
/-! What stands in an idle block (R124, R139). -/

namespace Sys2Proof.Machine

/-- What the host reads of an idle block. -/
structure SameOutcome (s t : State) : Prop where
  res : t.res = s.res
  err : t.err = s.err
  flags : t.flags = s.flags
  et : t.et = s.et
  seq : t.seq = s.seq
  pad : t.pad = s.pad

theorem SameOutcome.setBus {s t : State} (h : SameOutcome s t) (b : Bus) : SameOutcome s (t.setBus b) :=
  ⟨h.res, h.err, h.flags, h.et, h.seq, h.pad⟩

/-- A microsecond of an idle block changes nothing but the time. -/
theorem TickEffect.sameOutcome {s t : State} (hb : s.flags.busy = false) (h : TickEffect s t) : SameOutcome s t := by
  cases h with
  | held => exact ⟨rfl, rfl, rfl, rfl, rfl, rfl⟩
  | idles => exact ⟨rfl, rfl, rfl, rfl, rfl, rfl⟩
  | polls _ hb' | pulses _ hb' | checks _ hb' | commits _ hb' => simp [hb] at hb'

/-- Releasing `rst`, or driving it to the level it has, touches nothing the host reads. -/
theorem driveRst_false_sameOutcome (s : State) (b : Bus) : SameOutcome s (driveRst false (s.setBus b)) := by
  cases hr : s.rst with
  | true =>
    rw [driveRst_release (s.setBus b) hr]
    exact ⟨rfl, rfl, rfl, rfl, rfl, rfl⟩
  | false =>
    have hsame : driveRst (s.setBus b).rst (s.setBus b) = s.setBus b := driveRst_same (s.setBus b)
    rw [State.setBus_rst, hr] at hsame
    rw [hsame]
    exact ⟨rfl, rfl, rfl, rfl, rfl, rfl⟩

/-- Settles O15: of the effects of a step, those an idle block allows without a command or a reset touch nothing the host reads;
and acceptance clears the results. -/
theorem resultsHeldUntilNextAcceptance : Obligations.ResultsHeldUntilNextAcceptance := by
  constructor
  · intro s t hb h hcmd hrst
    obtain ⟨hres, herr, hflags, het, hseq, hpad⟩ : SameOutcome s t := by
      cases step_effect h with
      | outside b => exact ⟨rfl, rfl, rfl, rfl, rfl, rfl⟩
      | passes b ht => exact ((tick_effect ht).sameOutcome hb).setBus b
      | @drivesRst b level rest hs =>
        cases level with
        | true => exact absurd hs (hrst rest)
        | false => exact driveRst_false_sameOutcome s b
      | dropped b _ hb' => simp [hb] at hb'
      | writes b r v =>
        rw [writeReg_eq]
        exact ⟨rfl, rfl, rfl, rfl, rfl, rfl⟩
      | accepts b hs => exact absurd hs (hcmd _ _)
      | reports b hs => exact absurd hs (hcmd _ _)
    exact ⟨hres, herr, hflags, het, hseq, hpad⟩
  · intro s t w rest hr hb hs h
    rw [step_cmd s hs] at h
    exact deliverWord_res (s := { s with bus := { s.bus with script := rest, seen := Seen.nothing } }) hr hb h

end Sys2Proof.Machine
end

section
/-! The line (R85): which steps drive the pad. -/

namespace Sys2Proof.Machine

/-- The host's AWAIT never drives the pad (R77). -/
theorem pollTick_idle_pad {s : State} (hg : s.seq.stage = .idle) : (pollTick waitMet waitTimedOut s).pad = s.pad := by
  have hg' : (stopTimer (reachSample s)).seq.stage = .idle := hg
  rcases pollTick_cases s waitMet waitTimedOut with ⟨-, e⟩ | ⟨-, -, e⟩ | ⟨-, -, -, e⟩ | ⟨-, -, -, e⟩ <;> rw [e]
  · rfl
  · rw [waitMet_idle _ hg']
    rfl
  · rfl
  · rw [waitTimedOut_idle _ hg']
    rfl

/-- A microsecond drives the pad only in a stage of a running acquisition. -/
theorem TickEffect.pad {s t : State} (h : TickEffect s t) (hp : t.pad ≠ s.pad) :
    s.flags.busy = true ∧ s.seq.stage ≠ .idle := by
  cases h with
  | held => exact absurd rfl hp
  | idles => exact absurd rfl hp
  | polls _ hb _ _ => exact ⟨hb, fun hg => hp (pollTick_idle_pad (s := passTime 1 s) hg)⟩
  | pulses _ hb hg | checks _ hb hg | commits _ hb hg => exact ⟨hb, by simp [hg]⟩

/-- Settles O20, by the effect of the step. -/
theorem lineWrittenOnlyByDriver : Obligations.LineWrittenOnlyByDriver := by
  intro s t h hp
  cases step_effect h with
  | outside b => exact absurd rfl hp
  | passes b ht => exact .inr (.inr ((tick_effect ht).pad hp))
  | @drivesRst b level rest hs =>
    cases level with
    | true => exact .inl ⟨rest, hs⟩
    | false => exact absurd (driveRst_false_sameOutcome s b).pad hp
  | dropped b => exact absurd rfl hp
  | writes b r v =>
    rw [writeReg_eq] at hp
    exact absurd rfl hp
  | @accepts b w rest i _ hs hd hr hb he =>
    refine .inr (.inl ⟨w, rest, i, hs, hd, hr, hb, ?_⟩)
    rintro level budget rfl
    cases exec_accepted (s := s.setBus b) hr hb he with
    | drives _ _ hi => exact hi level budget rfl
    | polls => exact hp rfl
    | timesOut => exact hp rfl
  | reports b => exact absurd (congrArg State.pad (illegalCommand_eq (s.setBus b))) hp

end Sys2Proof.Machine
end

section
/-! The invariant by modes. Outside reset the block rests, runs the host's AWAIT, runs the start pulse, or waits for the sensor; each
mode says what every group of the state holds in it, and together they are the invariant. A proof about a step goes from mode to mode
and never sees the fields of `Inv`. -/

namespace Sys2Proof.Machine

/-! What the groups of the state hold. -/

/-- The parameters, `rst` and `PIN`: the same in every mode. -/
structure Grounded (c : Config) (rst : Bool) (r : Regs) : Prop where
  legal : c.Legal
  released : rst = false
  pinWidth : r.pin.toNat < 2 ^ c.pinW

/-- A command in progress has no result and no error yet (R44); `atomic` tells whether it is an acquisition. -/
structure Working (atomic : Bool) (f : Flags) (r : Results) (e : ErrReg) : Prop where
  busy : f.busy = true
  notDone : f.done = false
  window : f.atomic = atomic
  noResult : r = Results.clear
  noError : e = ErrReg.clear

/-- What a command may leave behind (R24, R25, R28, R36). -/
structure OutcomeSound (r : Results) (e : ErrReg) (done : Bool) : Prop where
  readingSound : r.hvalid = true ∨ r.tvalid = true → e.code = .none ∧ done = true ∧ r.frame.valid = true
  errorNoResult : e.code ≠ .none → r = Results.clear
  errDone : e.code ≠ .none → done = true
  frameSound : r.frame = Frame.zero ∨ r.frame.valid = true
  humValue : r.hum = if r.hvalid then convert r.frame.b0 else 0#16
  tempValue : r.temp = if r.tvalid then convert r.frame.b2 else 0#16
  errRange : e.InRange

theorem OutcomeSound.cleared {e : ErrReg} {done : Bool} (hr : e.InRange) (hd : e.code ≠ .none → done = true) :
    OutcomeSound Results.clear e done where
  readingSound := by simp
  errorNoResult _ := rfl
  errDone := hd
  frameSound := .inl rfl
  humValue := rfl
  tempValue := rfl
  errRange := hr

theorem OutcomeSound.delivered {f : Frame} (d : Decoder) (hf : f.valid = true) :
    OutcomeSound (deliver f d) ErrReg.clear true where
  readingSound _ := ⟨rfl, rfl, hf⟩
  errorNoResult h := absurd rfl h
  errDone _ := rfl
  frameSound := .inr hf
  humValue := rfl
  tempValue := rfl
  errRange := rfl

/-- The Edge Timer between waits. -/
structure PollStopped (c : Config) (e : EdgeTimer) : Prop where
  stopped : e.run = false
  count : e.pollCnt = 0#3
  multiple : c.pollUs ∣ e.elapsed.toNat

/-- The Edge Timer in a wait: the next sample is still inside the budget (R73). -/
structure PollRuns (c : Config) (e : EdgeTimer) : Prop where
  runs : e.run = true
  count : e.pollCnt.toNat < c.pollUs
  inside : e.elapsed.toNat + c.pollUs ≤ e.budget.toNat
  multiple : c.pollUs ∣ e.elapsed.toNat

section
variable {c : Config} {e : EdgeTimer}

theorem PollStopped.cleared (h : PollStopped c e) : PollStopped c { e with elapsed := 0#16 } :=
  ⟨h.stopped, h.count, dvd_zero _⟩

theorem PollStopped.short (b : Dur) (l : Bool) : PollStopped c ⟨0#16, b, l, false, 0#3⟩ := ⟨rfl, rfl, dvd_zero _⟩

theorem PollRuns.armed (hc : c.Legal) {b : Dur} (l : Bool) (h : c.pollUs ≤ b.toNat) :
    PollRuns c ⟨0#16, b, l, true, 0#3⟩ := by
  obtain ⟨⟨hp, -⟩, -⟩ := hc
  exact ⟨rfl, hp, by simpa using h, dvd_zero _⟩

/-- A sample inside the budget does not overflow `ET_ELAPSED` (R19). -/
theorem PollRuns.elapsed_next (h : PollRuns c e) :
    (e.elapsed + BitVec.ofNat 16 c.pollUs).toNat = e.elapsed.toNat + c.pollUs := by
  rw [BitVec.toNat_add, BitVec.toNat_ofNat, Nat.add_mod_mod]
  exact Nat.mod_eq_of_lt (Nat.lt_of_le_of_lt h.inside e.budget.isLt)

theorem PollRuns.multiple_next (h : PollRuns c e) :
    c.pollUs ∣ (e.elapsed + BitVec.ofNat 16 c.pollUs).toNat := by
  rw [h.elapsed_next]
  exact Nat.dvd_add_self_right.mpr h.multiple

/-- A microsecond that is no sample instant. -/
theorem PollRuns.counted (hc : c.Legal) (h : PollRuns c e) (hlt : e.pollCnt.toNat + 1 < c.pollUs) :
    PollRuns c { e with pollCnt := e.pollCnt + 1#3 } := by
  obtain ⟨⟨-, hp⟩, -⟩ := hc
  refine ⟨h.runs, ?_, h.inside, h.multiple⟩
  show (e.pollCnt + 1#3).toNat < c.pollUs
  rw [BitVec.toNat_add, BitVec.toNat_ofNat]
  omega

/-- A sample that misses, with another one inside the budget. -/
theorem PollRuns.missed (hc : c.Legal) (h : PollRuns c e)
    (hfit : (e.elapsed + BitVec.ofNat 16 c.pollUs).toNat + c.pollUs ≤ e.budget.toNat) :
    PollRuns c { e with elapsed := e.elapsed + BitVec.ofNat 16 c.pollUs, pollCnt := 0#3 } := by
  obtain ⟨⟨hp, -⟩, -⟩ := hc
  exact ⟨h.runs, hp, hfit, h.multiple_next⟩

/-- A sample that ends the wait. -/
theorem PollRuns.ended (h : PollRuns c e) :
    PollStopped c
      { e with elapsed := e.elapsed + BitVec.ofNat 16 c.pollUs, pollCnt := 0#3, run := false } :=
  ⟨rfl, rfl, h.multiple_next⟩

end

/-- The sequencer stands in a stage that waits for the sensor (R13 to R15). -/
structure Seq.Waiting (q : Seq) : Prop where
  waits : q.stage.Waits
  subPlace : q.sub = true → q.stage = .readBit
  bitIdxPlace : q.stage ≠ .readBit → q.bitIdx = 0#6
  bitIdxRange : q.bitIdx.toNat < 40

theorem Seq.waiting_handshake {g : Stage} (h : g.Waits) : Seq.Waiting ⟨g, false, 0#6⟩ :=
  ⟨h, nofun, fun _ => rfl, by simp⟩

theorem Seq.waiting_readBit (sub : Bool) {i : BitVec 6} (h : i.toNat < 40) : Seq.Waiting ⟨.readBit, sub, i⟩ :=
  ⟨.inr (.inr (.inr rfl)), fun _ => rfl, fun hn => absurd rfl hn, h⟩

theorem Stage.Waits.ne {g : Stage} (h : g.Waits) : g ≠ .idle ∧ g ≠ .startPulse ∧ g ≠ .checksum ∧ g ≠ .done := by
  obtain rfl | rfl | rfl | rfl := h <;> decide

/-! The modes. -/

/-- No command runs. -/
structure Resting (s : State) : Prop where
  grounded : Grounded s.cfg s.rst s.regs
  seq : s.seq = ⟨.idle, false, 0#6⟩
  notBusy : s.flags.busy = false
  closed : s.flags.atomic = false
  timer : PollStopped s.cfg s.et
  delay : s.dly = 0#16
  pad : s.pad.oe = false → s.pad.out = false
  outcome : OutcomeSound s.res s.err s.flags.done

/-- The host's AWAIT runs (R82). -/
structure Awaiting (s : State) : Prop where
  grounded : Grounded s.cfg s.rst s.regs
  working : Working false s.flags s.res s.err
  seq : s.seq = ⟨.idle, false, 0#6⟩
  timer : PollRuns s.cfg s.et
  delay : s.dly = 0#16
  pad : s.pad.oe = false → s.pad.out = false

/-- The start pulse runs (R97). -/
structure Pulsing (s : State) : Prop where
  grounded : Grounded s.cfg s.rst s.regs
  working : Working true s.flags s.res s.err
  seq : s.seq = ⟨.startPulse, s.seq.sub, 0#6⟩
  timer : PollStopped s.cfg s.et
  delay : s.dly ≠ 0#16
  pad : s.pad = if s.seq.sub then Pad.H else Pad.L
  wants : s.dec.wantH = true ∨ s.dec.wantT = true

/-- An acquisition at the instant between two waits, wherever the sequencer stands: no state at a tick boundary. -/
structure Between (s : State) : Prop where
  grounded : Grounded s.cfg s.rst s.regs
  working : Working true s.flags s.res s.err
  timer : PollStopped s.cfg s.et
  delay : s.dly = 0#16
  pad : s.pad = Pad.Z
  wants : s.dec.wantH = true ∨ s.dec.wantT = true

/-- A stage waits for the sensor (R98 to R101). -/
structure Sensing (s : State) : Prop where
  grounded : Grounded s.cfg s.rst s.regs
  working : Working true s.flags s.res s.err
  seq : s.seq.Waiting
  timer : PollRuns s.cfg s.et
  delay : s.dly = 0#16
  pad : s.pad = Pad.Z
  wants : s.dec.wantH = true ∨ s.dec.wantT = true
  operands : stageWait s.seq s.regs = some (s.et.budget, s.et.level)

/-- The mode the block is in. -/
inductive Mode (s : State) : Prop
  | resting (h : Resting s)
  | awaiting (h : Awaiting s)
  | pulsing (h : Pulsing s)
  | sensing (h : Sensing s)

/-! The modes are the invariant. -/

variable {s : State}

theorem Resting.inv (h : Resting s) : Inv s where
  spec :=
    { window := by simp [h.closed]
      stageBusy := by simp [h.seq]
      busyNotDone := by simp [h.notBusy]
      waitsReleased := by simp [h.seq]
      pulseDriven := by simp [h.seq]
      readingSound := h.outcome.readingSound
      errorNoResult := h.outcome.errorNoResult
      padThreeValued := h.pad
      elapsedMultiple := h.timer.multiple }
  shape :=
    { legal := h.grounded.legal
      noInstantStage := by simp [h.seq]
      stageWindow := by simp [h.seq]
      subPlace := by simp [h.seq]
      bitIdxPlace := by simp [h.seq]
      bitIdxRange := by simp [h.seq]
      timerRuns := by simp [h.timer.stopped, h.notBusy]
      delayRuns := by simp [h.delay, h.seq]
      pollInside := by simp [h.timer.stopped]
      pollIdle := fun _ => h.timer.count
      stageOperands := .inl (by simp [stageWait, h.seq])
      busyClear := by simp [h.notBusy]
      errDone := h.outcome.errDone
      frameSound := h.outcome.frameSound
      humValue := h.outcome.humValue
      tempValue := h.outcome.tempValue
      errRange := h.outcome.errRange
      pinWidth := h.grounded.pinWidth
      resetHeld := by simp [h.grounded.released]
      wantsSomething := by simp [h.seq] }

/-- A command in progress has a sound outcome: none. -/
theorem Working.outcome {atomic : Bool} (h : Working atomic s.flags s.res s.err) :
    OutcomeSound s.res s.err s.flags.done := by
  rw [h.noResult, h.noError]
  exact .cleared rfl (by simp)

theorem Awaiting.inv (h : Awaiting s) : Inv s where
  spec :=
    { window := by simp [h.working.window]
      stageBusy := fun _ => h.working.busy
      busyNotDone := fun _ => h.working.notDone
      waitsReleased := by simp [h.seq]
      pulseDriven := by simp [h.seq]
      readingSound := h.working.outcome.readingSound
      errorNoResult := h.working.outcome.errorNoResult
      padThreeValued := h.pad
      elapsedMultiple := h.timer.multiple }
  shape :=
    { legal := h.grounded.legal
      noInstantStage := by simp [h.seq]
      stageWindow := by simp [h.seq]
      subPlace := by simp [h.seq]
      bitIdxPlace := by simp [h.seq]
      bitIdxRange := by simp [h.seq]
      timerRuns := by simp [h.timer.runs, h.working.busy, h.seq]
      delayRuns := by simp [h.delay, h.seq]
      pollInside := fun _ => ⟨h.timer.count, h.timer.inside⟩
      pollIdle := by simp [h.timer.runs]
      stageOperands := .inl (by simp [stageWait, h.seq])
      busyClear := fun _ => ⟨h.working.noResult, h.working.noError⟩
      errDone := h.working.outcome.errDone
      frameSound := h.working.outcome.frameSound
      humValue := h.working.outcome.humValue
      tempValue := h.working.outcome.tempValue
      errRange := h.working.outcome.errRange
      pinWidth := h.grounded.pinWidth
      resetHeld := by simp [h.grounded.released]
      wantsSomething := by simp [h.seq] }

theorem Pulsing.stage (h : Pulsing s) : s.seq.stage = .startPulse := congrArg Seq.stage h.seq

theorem Pulsing.bitIdx (h : Pulsing s) : s.seq.bitIdx = 0#6 := congrArg Seq.bitIdx h.seq

theorem Pulsing.inv (h : Pulsing s) : Inv s where
  spec :=
    { window := fun _ => ⟨h.working.busy, .inl h.stage⟩
      stageBusy := fun _ => h.working.busy
      busyNotDone := fun _ => h.working.notDone
      waitsReleased := by simp [h.stage]
      pulseDriven := fun _ => h.pad
      readingSound := h.working.outcome.readingSound
      errorNoResult := h.working.outcome.errorNoResult
      padThreeValued := by rw [h.pad]; cases s.seq.sub <;> simp
      elapsedMultiple := h.timer.multiple }
  shape :=
    { legal := h.grounded.legal
      noInstantStage := by simp [h.stage]
      stageWindow := fun _ => h.working.window
      subPlace := fun _ => .inl h.stage
      bitIdxPlace := fun _ => h.bitIdx
      bitIdxRange := by simp [h.bitIdx]
      timerRuns := by simp [h.timer.stopped, h.stage]
      delayRuns := by simp [h.delay, h.stage]
      pollInside := by simp [h.timer.stopped]
      pollIdle := fun _ => h.timer.count
      stageOperands := .inl (by simp [stageWait, h.stage])
      busyClear := fun _ => ⟨h.working.noResult, h.working.noError⟩
      errDone := h.working.outcome.errDone
      frameSound := h.working.outcome.frameSound
      humValue := h.working.outcome.humValue
      tempValue := h.working.outcome.tempValue
      errRange := h.working.outcome.errRange
      pinWidth := h.grounded.pinWidth
      resetHeld := by simp [h.grounded.released]
      wantsSomething := fun _ => h.wants }

theorem Sensing.inv (h : Sensing s) : Inv s := by
  obtain ⟨hidle, hpulse, hchecksum, hdone⟩ := h.seq.waits.ne
  exact {
    spec :=
      { window := fun _ => ⟨h.working.busy, .inr h.seq.waits⟩
        stageBusy := fun _ => h.working.busy
        busyNotDone := fun _ => h.working.notDone
        waitsReleased := fun _ => h.pad
        pulseDriven := fun hg => absurd hg hpulse
        readingSound := h.working.outcome.readingSound
        errorNoResult := h.working.outcome.errorNoResult
        padThreeValued := by simp [h.pad]
        elapsedMultiple := h.timer.multiple }
    shape :=
      { legal := h.grounded.legal
        noInstantStage := ⟨hchecksum, hdone⟩
        stageWindow := fun _ => h.working.window
        subPlace := fun hs => .inr (h.seq.subPlace hs)
        bitIdxPlace := h.seq.bitIdxPlace
        bitIdxRange := h.seq.bitIdxRange
        timerRuns := by simp [h.timer.runs, h.working.busy, hpulse]
        delayRuns := by simp [h.delay, hpulse]
        pollInside := fun _ => ⟨h.timer.count, h.timer.inside⟩
        pollIdle := by simp [h.timer.runs]
        stageOperands := .inr h.operands
        busyClear := fun _ => ⟨h.working.noResult, h.working.noError⟩
        errDone := h.working.outcome.errDone
        frameSound := h.working.outcome.frameSound
        humValue := h.working.outcome.humValue
        tempValue := h.working.outcome.tempValue
        errRange := h.working.outcome.errRange
        pinWidth := h.grounded.pinWidth
        resetHeld := by simp [h.grounded.released]
        wantsSomething := fun _ => h.wants } }

theorem Mode.inv (h : Mode s) : Inv s := by
  cases h with
  | resting h => exact h.inv
  | awaiting h => exact h.inv
  | pulsing h => exact h.inv
  | sensing h => exact h.inv

/-! The invariant gives the mode. -/

theorem Inv.grounded (hi : Inv s) (hr : s.rst = false) : Grounded s.cfg s.rst s.regs :=
  ⟨hi.shape.legal, hr, hi.shape.pinWidth⟩

theorem Inv.working (hi : Inv s) (hb : s.flags.busy = true) {atomic : Bool} (ha : s.flags.atomic = atomic) :
    Working atomic s.flags s.res s.err :=
  ⟨hb, hi.spec.busyNotDone hb, ha, (hi.shape.busyClear hb).1, (hi.shape.busyClear hb).2⟩

theorem Inv.pollStopped (hi : Inv s) (h : s.et.run = false) : PollStopped s.cfg s.et :=
  ⟨h, hi.shape.pollIdle h, hi.spec.elapsedMultiple⟩

theorem Inv.pollRuns (hi : Inv s) (h : s.et.run = true) : PollRuns s.cfg s.et :=
  ⟨h, (hi.shape.pollInside h).1, (hi.shape.pollInside h).2, hi.spec.elapsedMultiple⟩

theorem Inv.seq_idle (hi : Inv s) (hg : s.seq.stage = .idle) : s.seq = ⟨.idle, false, 0#6⟩ := by
  have hsub : s.seq.sub = false := by simpa [hg] using hi.shape.subPlace
  have hidx : s.seq.bitIdx = 0#6 := hi.shape.bitIdxPlace (by simp [hg])
  rw [← hg, ← hsub, ← hidx]

theorem Inv.closed_of_idle (hi : Inv s) (hg : s.seq.stage = .idle) : s.flags.atomic = false := by
  simpa [hg, Stage.Waits] using hi.spec.window

theorem Inv.delay_zero (hi : Inv s) (hg : s.seq.stage ≠ .startPulse) : s.dly = 0#16 :=
  not_not.mp fun h => hg (hi.shape.delayRuns.mp h)

theorem Inv.outcome (hi : Inv s) : OutcomeSound s.res s.err s.flags.done :=
  ⟨hi.spec.readingSound, hi.spec.errorNoResult, hi.shape.errDone, hi.shape.frameSound, hi.shape.humValue,
    hi.shape.tempValue, hi.shape.errRange⟩

theorem Inv.stage_idle (hi : Inv s) (hb : s.flags.busy = false) : s.seq.stage = .idle := by
  simpa [hb] using mt hi.spec.stageBusy

theorem Inv.resting (hi : Inv s) (hr : s.rst = false) (hb : s.flags.busy = false) : Resting s := by
  have hg := hi.stage_idle hb
  have hrun : s.et.run = false := by simpa [hb] using hi.shape.timerRuns
  exact ⟨hi.grounded hr, hi.seq_idle hg, hb, hi.closed_of_idle hg, hi.pollStopped hrun, hi.delay_zero (by simp [hg]),
    hi.spec.padThreeValued, hi.outcome⟩

theorem Inv.awaiting (hi : Inv s) (hr : s.rst = false) (hb : s.flags.busy = true) (hg : s.seq.stage = .idle) :
    Awaiting s :=
  ⟨hi.grounded hr, hi.working hb (hi.closed_of_idle hg), hi.seq_idle hg,
    hi.pollRuns (hi.shape.timerRuns.mpr ⟨hb, by simp [hg]⟩), hi.delay_zero (by simp [hg]), hi.spec.padThreeValued⟩

theorem Inv.pulsing (hi : Inv s) (hr : s.rst = false) (hg : s.seq.stage = .startPulse) : Pulsing s := by
  have hn : s.seq.stage ≠ .idle := by simp [hg]
  have hidx : s.seq.bitIdx = 0#6 := hi.shape.bitIdxPlace (by simp [hg])
  have hrun : s.et.run = false := by simpa [hg] using hi.shape.timerRuns
  exact ⟨hi.grounded hr, hi.working (hi.spec.stageBusy hn) (hi.shape.stageWindow hn), by rw [← hg, ← hidx],
    hi.pollStopped hrun, hi.shape.delayRuns.mpr hg, hi.spec.pulseDriven hg, hi.shape.wantsSomething hn⟩

theorem Inv.sensing (hi : Inv s) (hr : s.rst = false) (hg : s.seq.stage.Waits) : Sensing s := by
  obtain ⟨hidle, hpulse, -, -⟩ := hg.ne
  have hb := hi.spec.stageBusy hidle
  have hops : stageWait s.seq s.regs ≠ none := by
    obtain h | h | h | h := hg
    iterate 3 simp [stageWait, h]
    cases hs : s.seq.sub <;> simp [stageWait, h, hs]
  exact ⟨hi.grounded hr, hi.working hb (hi.shape.stageWindow hidle),
    ⟨hg, fun hs => (hi.shape.subPlace hs).resolve_left hpulse, hi.shape.bitIdxPlace, hi.shape.bitIdxRange⟩,
    hi.pollRuns (hi.shape.timerRuns.mpr ⟨hb, hpulse⟩), hi.delay_zero hpulse, hi.spec.waitsReleased hg,
    hi.shape.wantsSomething hidle, hi.shape.stageOperands.resolve_left hops⟩

/-- Outside reset a state of the invariant is in a mode: by `BUSY`, then by the stage. -/
theorem Inv.mode (hi : Inv s) (hr : s.rst = false) : Mode s := by
  cases hb : s.flags.busy with
  | false => exact .resting (hi.resting hr hb)
  | true =>
    cases hg : s.seq.stage with
    | idle => exact .awaiting (hi.awaiting hr hb hg)
    | startPulse => exact .pulsing (hi.pulsing hr hg)
    | awaitSensorAck | awaitSensorReady | awaitDataStart | readBit =>
      exact .sensing (hi.sensing hr (by simp [hg, Stage.Waits]))
    | checksum => exact absurd hg hi.shape.noInstantStage.1
    | done => exact absurd hg hi.shape.noInstantStage.2

end Sys2Proof.Machine
end

section
/-! From mode to mode: what each operation of the machine makes of the mode it starts in. -/

namespace Sys2Proof.Machine

variable {s : State}

/-! The ends of an acquisition, and the starts of its waits. -/

theorem Between.fail_resting (h : Between s) {code : ErrCode} {info : BitVec 6} (he : ErrReg.InRange ⟨code, info⟩) :
    Resting (fail code info s) := by
  rw [fail_eq]
  exact {
    grounded := h.grounded, seq := rfl, notBusy := rfl, closed := rfl, timer := h.timer, delay := h.delay, pad := nofun
    outcome := by rw [h.working.noResult]; exact .cleared he fun _ => rfl }

/-- A stage that waits for the sensor gives up (R98 to R101). -/
theorem Between.waitTimedOut_resting (h : Between s) (hq : s.seq.Waiting) : Resting (waitTimedOut s) := by
  obtain hg | hg | hg | hg := hq.waits
  · rw [waitTimedOut_ack s hg]
    exact h.fail_resting (.inl rfl)
  · rw [waitTimedOut_ready s hg]
    exact h.fail_resting (.inr (.inl rfl))
  · rw [waitTimedOut_data s hg]
    exact h.fail_resting (.inr (.inr rfl))
  · rw [waitTimedOut_bit s hg]
    exact h.fail_resting (code := .bitTimeout) hq.bitIdxRange

/-- A stage starts its wait, or gives up at once (R83). -/
theorem Between.startStage_mode (h : Between s) {q : Seq} {b : Dur} {l : Bool} (hq : q.Waiting)
    (hops : stageWait q s.regs = some (b, l)) : Mode (startStage q b l s) := by
  by_cases hf : s.cfg.pollUs ≤ b.toNat
  · rw [startStage_fits s q b l hf]
    exact .sensing {
      grounded := h.grounded, working := h.working, seq := hq, timer := .armed h.grounded.legal l hf
      delay := h.delay, pad := h.pad, wants := h.wants, operands := hops }
  · rw [startStage_short s q b l hf]
    refine .resting (Between.waitTimedOut_resting ?_ hq)
    exact {
      grounded := h.grounded, working := h.working, timer := .short b l, delay := h.delay, pad := h.pad, wants := h.wants }

/-- The last bit ends the acquisition, whether the frame holds or not (R105, R106). -/
theorem Between.endBits_resting (h : Between s) : Resting (endBits s) := by
  by_cases hv : (pack s.dec.bitBuf).valid = true
  · rw [endBits_valid s hv]
    exact {
      grounded := h.grounded, seq := rfl, notBusy := rfl, closed := rfl, timer := h.timer, delay := h.delay, pad := nofun
      outcome := by rw [h.working.noError]; exact .delivered s.dec hv }
  · rw [endBits_invalid s hv, ← fail_eq]
    exact h.fail_resting rfl

/-- The Frame Decoder may write all but the request. -/
theorem Between.of_setDec (h : Between s) {d : Decoder} (hH : d.wantH = s.dec.wantH) (hT : d.wantT = s.dec.wantT) :
    Between (s.setDec d) where
  grounded := h.grounded
  working := h.working
  timer := h.timer
  delay := h.delay
  pad := h.pad
  wants := by rw [State.setDec_dec, hH, hT]; exact h.wants

/-! The start pulse. -/

/-- The line is released and stage 2 starts (R97, R98). -/
theorem Pulsing.endStartHigh_mode (h : Pulsing s) {q : Seq} {p : Pad} {e : Env} :
    Mode (endStartHigh { s with seq := q, pad := p, env := e, dly := 0#16 }) := by
  rw [endStartHigh_eq]
  refine Between.startStage_mode ?_ (Seq.waiting_handshake (.inl rfl)) rfl
  exact {
    grounded := h.grounded, working := h.working, timer := h.timer, delay := rfl, pad := rfl, wants := h.wants }

theorem Pulsing.endStartLow_mode (h : Pulsing s) : Mode (endStartLow { s with dly := 0#16 }) := by
  by_cases hz : BitVec.ofNat 16 s.cfg.startHighUs = 0#16
  · rw [endStartLow_none { s with dly := 0#16 } hz]
    exact h.endStartHigh_mode
  · rw [endStartLow_high { s with dly := 0#16 } hz]
    exact .pulsing {
      grounded := h.grounded, working := h.working, seq := rfl, timer := h.timer, delay := hz, pad := rfl
      wants := h.wants }

theorem Pulsing.startPulseTick_mode (h : Pulsing s) : Mode (startPulseTick s) := by
  rcases startPulseTick_cases s with ⟨hd, e⟩ | ⟨-, -, e⟩ | ⟨-, -, e⟩ <;> rw [e]
  · exact .pulsing {
      grounded := h.grounded, working := h.working, seq := h.seq, timer := h.timer, delay := hd, pad := h.pad
      wants := h.wants }
  · exact h.endStartHigh_mode
  · exact h.endStartLow_mode

/-! The stages that wait for the sensor. -/

/-- The sample that ends a wait stops the Edge Timer. -/
theorem Sensing.between (h : Sensing s) : Between (stopTimer (reachSample s)) where
  grounded := h.grounded
  working := h.working
  timer := h.timer.ended
  delay := h.delay
  pad := h.pad
  wants := h.wants

/-- The low phase of a bit is measured (R101). -/
theorem Between.lowPhaseDone_mode (h : Between s) (hi : s.seq.bitIdx.toNat < 40) : Mode (lowPhaseDone s) :=
  (h.of_setDec (d := { s.dec with lowDur := s.et.elapsed }) rfl rfl).startStage_mode (Seq.waiting_readBit true hi) rfl

/-- The high phase of a bit is measured: the next bit, or the end of the frame (R101, R105). -/
theorem Between.highPhaseDone_mode (h : Between s) : Mode (highPhaseDone s) := by
  have hdec := h.of_setDec (d :=
    { s.dec with
      highDur := s.et.elapsed
      bitBuf := writeBit s.dec.bitBuf s.seq.bitIdx.toNat (decideBit s.dec.lowDur s.et.elapsed) }) rfl rfl
  by_cases hlast : s.seq.bitIdx.toNat < 39
  · have hnext : (s.seq.bitIdx + 1#6).toNat < 40 := by
      rw [BitVec.toNat_add, BitVec.toNat_ofNat]
      omega
    rw [highPhaseDone_next s hlast]
    exact hdec.startStage_mode (Seq.waiting_readBit false hnext) rfl
  · rw [highPhaseDone_last s hlast]
    exact .resting hdec.endBits_resting

/-- A wait for the sensor is met: one row of R115 per stage. -/
theorem Between.waitMet_mode (h : Between s) (hq : s.seq.Waiting) : Mode (waitMet s) := by
  obtain hg | hg | hg | hg := hq.waits
  · rw [waitMet_ack s hg]
    exact h.startStage_mode (Seq.waiting_handshake (.inr (.inl rfl))) rfl
  · rw [waitMet_ready s hg]
    exact h.startStage_mode (Seq.waiting_handshake (.inr (.inr (.inl rfl)))) rfl
  · rw [waitMet_data s hg]
    exact h.startStage_mode (Seq.waiting_readBit false (by decide)) rfl
  · cases hs : s.seq.sub with
    | false =>
      rw [waitMet_low s hg hs]
      exact h.lowPhaseDone_mode hq.bitIdxRange
    | true =>
      rw [waitMet_high s hg hs]
      exact h.highPhaseDone_mode

/-- Whether the next sample fits, in terms of the Edge Timer. -/
theorem sampleFits_reachSample (hf : sampleFits (reachSample s) = true) :
    (s.et.elapsed + BitVec.ofNat 16 s.cfg.pollUs).toNat + s.cfg.pollUs ≤ s.et.budget.toNat :=
  of_decide_eq_true hf

theorem Sensing.pollTick_mode (h : Sensing s) : Mode (pollTick waitMet waitTimedOut s) := by
  have hq : (stopTimer (reachSample s)).seq.Waiting := h.seq
  rcases pollTick_cases s waitMet waitTimedOut with ⟨hc, e⟩ | ⟨-, -, e⟩ | ⟨-, -, hf, e⟩ | ⟨-, -, -, e⟩ <;> rw [e]
  · exact .sensing { h with timer := h.timer.counted h.grounded.legal hc }
  · exact h.between.waitMet_mode hq
  · exact .sensing { h with timer := h.timer.missed h.grounded.legal (sampleFits_reachSample hf) }
  · exact .resting (h.between.waitTimedOut_resting hq)

/-! The host's AWAIT. -/

/-- AWAIT ends, with or without an error (R82). -/
theorem Awaiting.ended_resting (h : Awaiting s) {e : ErrReg} (he : e.InRange) :
    Resting (complete ((stopTimer (reachSample s)).setErr e)) where
  grounded := h.grounded
  seq := h.seq
  notBusy := rfl
  closed := h.working.window
  timer := h.timer.ended
  delay := h.delay
  pad := h.pad
  outcome := by
    show OutcomeSound s.res e true
    rw [h.working.noResult]
    exact .cleared he fun _ => rfl

theorem Awaiting.pollTick_mode (h : Awaiting s) : Mode (pollTick waitMet waitTimedOut s) := by
  have hg : (stopTimer (reachSample s)).seq.stage = .idle := congrArg Seq.stage h.seq
  rcases pollTick_cases s waitMet waitTimedOut with ⟨hc, e⟩ | ⟨-, -, e⟩ | ⟨-, -, hf, e⟩ | ⟨-, -, -, e⟩ <;> rw [e]
  · exact .awaiting { h with timer := h.timer.counted h.grounded.legal hc }
  · rw [waitMet_idle _ hg]
    refine .resting (h.ended_resting (e := s.err) ?_)
    rw [h.working.noError]
  · exact .awaiting { h with timer := h.timer.missed h.grounded.legal (sampleFits_reachSample hf) }
  · rw [waitTimedOut_idle _ hg]
    exact .resting (h.ended_resting (e := ⟨.timeoutError, 0#6⟩) rfl)

/-! A microsecond. -/

theorem Resting.tick_next (h : Resting s) : ∃ t, tick s = .next t ∧ Mode t :=
  ⟨_, tick_idle s h.grounded.released h.notBusy, .resting { h with }⟩

theorem Awaiting.tick_next (h : Awaiting s) : ∃ t, tick s = .next t ∧ Mode t := by
  have ht := tick_wait s h.grounded.released h.working.busy h.timer.runs (by simp [h.seq]) (by simp [h.seq])
    (by simp [h.seq])
  exact ⟨_, ht, Awaiting.pollTick_mode (s := passTime 1 s) { h with }⟩

theorem Pulsing.tick_next (h : Pulsing s) : ∃ t, tick s = .next t ∧ Mode t :=
  ⟨_, tick_pulse s h.grounded.released h.working.busy h.stage h.delay,
    Pulsing.startPulseTick_mode (s := passTime 1 s) { h with }⟩

theorem Sensing.tick_next (h : Sensing s) : ∃ t, tick s = .next t ∧ Mode t := by
  obtain ⟨-, hpulse, hchecksum, hdone⟩ := h.seq.waits.ne
  exact ⟨_, tick_wait s h.grounded.released h.working.busy h.timer.runs hpulse hchecksum hdone,
    Sensing.pollTick_mode (s := passTime 1 s) { h with }⟩

/-- In every mode a microsecond has a next state, again in a mode. -/
theorem Mode.tick_next (h : Mode s) : ∃ t, tick s = .next t ∧ Mode t := by
  cases h with
  | resting h => exact h.tick_next
  | awaiting h => exact h.tick_next
  | pulsing h => exact h.tick_next
  | sensing h => exact h.tick_next

/-! Acceptance and register writes, in a block that rests. -/

/-- A pulse length within the legal range is no zero in 16 bits (R7). -/
theorem Config.Legal.startLow_ne_zero {c : Config} (h : c.Legal) : BitVec.ofNat 16 c.startLowUs ≠ 0#16 := by
  obtain ⟨-, ⟨hlo, hhi⟩, -⟩ := h
  intro he
  have hz := congrArg BitVec.toNat he
  rw [BitVec.toNat_ofNat, Nat.mod_eq_of_lt (Nat.lt_succ_of_le hhi)] at hz
  simp at hz
  omega

/-- Every command accepted by a block that rests ends in a mode. -/
theorem Resting.accepted_mode (h : Resting s) {i : Instr} {t : State} (ha : Accepted s i t) : Mode t := by
  cases ha with
  | drives p hp =>
    exact .resting { h with
      notBusy := rfl, timer := h.timer.cleared, pad := hp, outcome := .cleared rfl (by simp) }
  | polls level hf =>
    exact .awaiting {
      grounded := h.grounded, working := ⟨rfl, rfl, h.closed, rfl, rfl⟩, seq := h.seq
      timer := .armed h.grounded.legal level hf, delay := h.delay, pad := h.pad }
  | timesOut level =>
    exact .resting { h with
      notBusy := rfl, timer := .short _ level, outcome := .cleared rfl fun _ => rfl }
  | @pulses wantH wantT hw =>
    exact .pulsing {
      grounded := h.grounded, working := ⟨rfl, rfl, rfl, rfl, rfl⟩, seq := rfl, timer := h.timer.cleared
      delay := Config.Legal.startLow_ne_zero h.grounded.legal, pad := rfl, wants := by simpa using hw }
  | wantsNothing =>
    exact .resting { h with
      notBusy := rfl, timer := h.timer.cleared, outcome := .cleared rfl fun _ => rfl }

theorem Resting.illegalCommand_resting (h : Resting s) : Resting (illegalCommand s) := by
  rw [illegalCommand_eq]
  exact { h with notBusy := rfl, timer := h.timer.cleared, outcome := .cleared rfl fun _ => rfl }

/-- A write keeps the unimplemented bits of `PIN` at 0 (R31). -/
theorem writeReg_pinWidth (r : HostReg) (v : Word) (h : s.regs.pin.toNat < 2 ^ s.cfg.pinW) :
    (writeReg r v s).regs.pin.toNat < 2 ^ s.cfg.pinW := by
  by_cases hr : r = .pin
  · subst hr
    show (pinBits s.cfg.pinW v).toNat < 2 ^ s.cfg.pinW
    rw [pinBits_toNat]
    exact Nat.mod_lt _ (Nat.two_pow_pos _)
  · have hpin : readReg .pin (writeReg r v s) = readReg .pin s := readReg_writeReg_other s v (Ne.symm hr)
    change (writeReg r v s).regs.pin = s.regs.pin at hpin
    rwa [hpin]

theorem Resting.writeReg_resting (h : Resting s) (r : HostReg) (v : Word) : Resting (writeReg r v s) := by
  have hpin := writeReg_pinWidth r v h.grounded.pinWidth
  rw [writeReg_eq]
  exact { h with grounded := ⟨h.grounded.legal, h.grounded.released, hpin⟩ }

end Sys2Proof.Machine
end

section
/-! The invariant is kept by every step (R36). -/

namespace Sys2Proof.Machine

variable {s : State}

/-! Reset. -/

theorem State.initial_resting {c : Config} (hc : c.Legal) (b : Bus) (e : Env) :
    Resting { State.initial c with bus := b, env := e } where
  grounded := ⟨hc, rfl, Nat.two_pow_pos _⟩
  seq := rfl
  notBusy := rfl
  closed := rfl
  timer := ⟨rfl, rfl, dvd_zero _⟩
  delay := rfl
  pad := fun _ => rfl
  outcome := .cleared rfl (by simp [State.initial])

/-- The reset state meets the invariant, `rst` asserted or released. -/
theorem State.initial_inv {c : Config} (hc : c.Legal) (r : Bool) (b : Bus) (e : Env) :
    Inv { State.initial c with rst := r, bus := b, env := e } :=
  have h := (State.initial_resting hc b e).inv
  ⟨{ h.spec with }, { h.shape with resetHeld := fun (hr : r = true) => by subst hr; rfl }⟩

/-- Settles O41. -/
theorem invariantAtReset : Obligations.InvariantAtReset :=
  State.initial_inv (c := Config.default) (by decide) false _ _

/-- Driving `rst` leaves the reset state, or changes nothing. -/
theorem Inv.of_driveRst (hi : Inv s) (level : Bool) : Inv (driveRst level s) := by
  by_cases hl : level = s.rst
  · rw [hl, driveRst_same s]
    exact hi
  · cases level with
    | true =>
      have hr : s.rst = false := by simpa using Ne.symm hl
      rw [driveRst_assert s hr, assertReset_eq]
      exact State.initial_inv hi.shape.legal true _ _
    | false =>
      have hr : s.rst = true := by simpa using Ne.symm hl
      have heq : releaseReset s = _ := congrArg releaseReset (hi.heldInReset hr)
      rw [driveRst_release s hr, heq]
      exact State.initial_inv hi.shape.legal false _ _

/-! What the invariant does not look at. -/

/-- The host's end of the bus. -/
theorem Inv.of_setBus (hi : Inv s) (b : Bus) : Inv (s.setBus b) :=
  ⟨{ hi.spec with }, { hi.shape with resetHeld := fun hr => congrArg (·.setBus b) (hi.heldInReset hr) }⟩

/-- The environment. -/
theorem Inv.of_setEnv (hi : Inv s) (e : Env) : Inv (s.setEnv e) :=
  ⟨{ hi.spec with }, { hi.shape with resetHeld := fun hr => congrArg (·.setEnv e) (hi.heldInReset hr) }⟩

/-- `OVR`. -/
theorem Inv.of_overrun (hi : Inv s) (hr : s.rst = false) : Inv (overrun s) :=
  ⟨{ hi.spec with }, { hi.shape with resetHeld := fun ht => Bool.noConfusion (hr.symm.trans ht) }⟩

/-! The step. -/

theorem Inv.of_tick (hi : Inv s) {t : State} (h : tick s = .next t) : Inv t := by
  cases hr : s.rst with
  | true =>
    rw [tick_reset s hr] at h
    cases h
    exact hi.of_setEnv _
  | false =>
    obtain ⟨u, hu, hm⟩ := (hi.mode hr).tick_next
    rw [hu] at h
    cases h
    exact hm.inv

theorem Inv.of_step {t : State} (hi : Inv s) (h : StepEffect s t) : Inv t := by
  cases h with
  | outside b => exact hi.of_setBus b
  | passes b ht => exact (hi.of_tick ht).of_setBus b
  | @drivesRst b level => exact (hi.of_setBus b).of_driveRst level
  | dropped b hr => exact (hi.of_setBus b).of_overrun hr
  | writes b r v hr hb => exact (((hi.of_setBus b).resting hr hb).writeReg_resting r v).inv
  | accepts b _ _ hr hb he => exact (((hi.of_setBus b).resting hr hb).accepted_mode (exec_accepted hr hb he)).inv
  | reports b _ _ hr hb => exact ((hi.of_setBus b).resting hr hb).illegalCommand_resting.inv

/-- Settles O42, by the effect of the step. -/
theorem invariantKeptByStep : Obligations.InvariantKeptByStep := fun _ _ hi h => hi.of_step (step_effect h)

/-- A run that goes on goes on from the next state. -/
theorem core_run_next {k : Nat} {s t : State} (h : Host.Core.run core (k + 1) s = .next t) :
    ∃ u, step s = .next u ∧ Host.Core.run core k u = .next t := by
  cases hs : step s with
  | next u => exact ⟨u, rfl, core_run_succ k hs ▸ h⟩
  | fault f => simp [Host.Core.run, show core.step s = .fault f from hs] at h
  | refused r => simp [Host.Core.run, show core.step s = .refused r from hs] at h

/-- What every step keeps holds along every run. -/
theorem run_keeps {P : State → Prop} (hstep : ∀ s t, P s → step s = .next t → P t) {k : Nat} {s t : State} (hs : P s)
    (h : Host.Core.run core k s = .next t) : P t := by
  induction k generalizing s with
  | zero =>
    cases h
    exact hs
  | succ k ih =>
    obtain ⟨u, hu, hrun⟩ := core_run_next h
    exact ih (hstep s u hs hu) hrun

/-- Settles O43: the invariant at reset, kept by every step. -/
theorem specInvariantAlongRuns : Obligations.SpecInvariantAlongRuns := by
  intro c script stim k t hc h
  have hreset := State.initial_inv hc false ⟨script, 0#32, Seen.nothing⟩ ⟨0, stim, [], 0⟩
  exact (run_keeps invariantKeptByStep hreset h).spec

end Sys2Proof.Machine
end

section
/-! The sample at which a wait is met, and ReadBit (R101 to R103). -/

namespace Sys2Proof.Machine

variable {s : State}

/-- A block held in reset is not busy. -/
theorem Inv.released_of_busy (hi : Inv s) (hb : s.flags.busy = true) : s.rst = false := by
  cases hr : s.rst with
  | false => rfl
  | true =>
    have hf : s.flags.busy = false := congrArg (fun u => u.flags.busy) (hi.heldInReset hr)
    simp [hb] at hf

/-- A microsecond of a running wait, whoever started it. -/
theorem Inv.tick_polls (hi : Inv s) (hb : s.flags.busy = true) (hrun : s.et.run = true) :
    tick s = .next (pollTick waitMet waitTimedOut (passTime 1 s)) :=
  tick_wait s (hi.released_of_busy hb) hb hrun (hi.shape.timerRuns.mp hrun).2 hi.shape.noInstantStage.1
    hi.shape.noInstantStage.2

/-- The state of a wait met at the next microsecond: the time and the Edge Timer have moved. -/
def State.sampled (s : State) : State :=
  { s with
    now := s.now + 1
    env := { s.env with clock := s.env.clock + 1 }
    et := ⟨s.nextElapsed, s.et.budget, s.et.level, false, 0#3⟩ }

/-- A sample at the expected level: what the stage makes of its `Ok` (R73, R115). -/
theorem Inv.tick_met (hi : Inv s) (h : s.SampleNext) (hl : s.nextLine = s.et.level) :
    tick s = .next (waitMet s.sampled) := by
  obtain ⟨hb, hrun, hcount⟩ := h
  rw [hi.tick_polls hb hrun]
  rcases pollTick_cases (passTime 1 s) waitMet waitTimedOut with ⟨hc, -⟩ | ⟨-, -, e⟩ | ⟨-, hn, -⟩ | ⟨-, hn, -⟩
  · exact absurd hcount (Nat.ne_of_lt hc)
  · rw [e]
    rfl
  · exact absurd hl hn
  · exact absurd hl hn

/-- Deciding bit `i` sets it and leaves the others (R103). -/
theorem writeBit_getLsbD (buf : BitBuffer) {i j : Nat} (hi : i < 40) (b : Bool) :
    (writeBit buf i b).getLsbD j = if j = i then b else buf.getLsbD j := by
  by_cases h : j = i
  · subst h
    rw [if_pos rfl, writeBit_self buf j b hi]
  · rw [if_neg h, writeBit_other buf i j b h]

/-- Settles O31, by the phase. -/
theorem bitPhasesMeasureAndDecide : Obligations.BitPhasesMeasureAndDecide := by
  intro s hi hs hl hg
  rw [hi.tick_met hs hl]
  constructor
  · intro hsub hf
    rw [waitMet_low s.sampled hg hsub, lowPhaseDone, startHighPhase]
    exact congrArg _ (startStage_fits _ _ _ _ hf)
  · intro hsub hidx hf
    rw [waitMet_high s.sampled hg hsub, highPhaseDone_next s.sampled hidx, startLowPhase]
    refine ⟨_, congrArg _ (startStage_fits _ _ _ _ hf), rfl, fun j _ => ?_⟩
    exact writeBit_getLsbD s.dec.bitBuf hi.shape.bitIdxRange _

end Sys2Proof.Machine
end

section
/-! Results come from the last bit alone (R106): what the other rows of R115 leave of them. -/

namespace Sys2Proof.Machine

variable (s : State)

theorem waitTimedOut_res : (waitTimedOut s).res = s.res := by
  unfold waitTimedOut
  split <;> rfl

theorem startStage_res (q : Seq) (b : Dur) (l : Bool) : (startStage q b l s).res = s.res := by
  by_cases h : s.cfg.pollUs ≤ b.toNat
  · rw [startStage_fits s q b l h]
  · rw [startStage_short s q b l h, waitTimedOut_res]

theorem endStartHigh_res : (endStartHigh s).res = s.res := by
  rw [endStartHigh_eq, startStage_res]

theorem startPulseTick_res : (startPulseTick s).res = s.res := by
  rcases startPulseTick_cases s with ⟨-, e⟩ | ⟨-, -, e⟩ | ⟨-, -, e⟩ <;> rw [e]
  · rw [endStartHigh_res]
  · by_cases h : BitVec.ofNat 16 s.cfg.startHighUs = 0#16
    · rw [endStartLow_none { s with dly := 0#16 } h, endStartHigh_res]
    · rw [endStartLow_high { s with dly := 0#16 } h]

/-- The end of the last bit delivers a valid frame, or nothing (R105). -/
theorem endBits_res : (endBits s).res = s.res ∨ (endBits s).res.frame.valid = true := by
  by_cases h : (pack s.dec.bitBuf).valid = true
  · rw [endBits_valid s h]
    exact .inr h
  · rw [endBits_invalid s h]
    exact .inl rfl

/-- A wait that is met leaves the results, unless it was the high phase of the last bit. -/
theorem waitMet_res :
    (waitMet s).res = s.res ∨
    (s.seq.stage = .readBit ∧ s.seq.sub = true ∧ ¬ s.seq.bitIdx.toNat < 39 ∧ (waitMet s).res.frame.valid = true) := by
  cases hg : s.seq.stage with
  | idle => exact .inl (by rw [waitMet_idle s hg, complete_eq])
  | startPulse | checksum | done => exact .inl (by simp only [waitMet, hg])
  | awaitSensorAck => exact .inl (by rw [waitMet_ack s hg, startReady, startStage_res])
  | awaitSensorReady => exact .inl (by rw [waitMet_ready s hg, startData, startStage_res])
  | awaitDataStart => exact .inl (by rw [waitMet_data s hg, startLowPhase, startStage_res])
  | readBit =>
    cases hs : s.seq.sub with
    | false => exact .inl (by rw [waitMet_low s hg hs, lowPhaseDone, startHighPhase, startStage_res, State.setDec_res])
    | true =>
      rw [waitMet_high s hg hs]
      by_cases hi : s.seq.bitIdx.toNat < 39
      · exact .inl (by rw [highPhaseDone_next s hi, startLowPhase, startStage_res])
      · rw [highPhaseDone_last s hi]
        exact (endBits_res _).imp_right fun hv => ⟨rfl, rfl, hi, hv⟩

/-- A microsecond of a running wait leaves the results, unless it is the last sample of the last bit. -/
theorem pollTick_res :
    (pollTick waitMet waitTimedOut s).res = s.res ∨
    (¬ s.et.pollCnt.toNat + 1 < s.cfg.pollUs ∧ s.line = s.et.level ∧ s.seq.stage = .readBit ∧ s.seq.sub = true ∧
      ¬ s.seq.bitIdx.toNat < 39 ∧ (pollTick waitMet waitTimedOut s).res.frame.valid = true) := by
  rcases pollTick_cases s waitMet waitTimedOut with ⟨-, e⟩ | ⟨hc, hl, e⟩ | ⟨-, -, -, e⟩ | ⟨-, -, -, e⟩ <;> rw [e]
  · exact .inl rfl
  · exact (waitMet_res (stopTimer (reachSample s))).imp_right fun h => ⟨hc, hl, h⟩
  · exact .inl rfl
  · exact .inl (waitTimedOut_res _)

/-- A microsecond of the whole block. -/
theorem Inv.tick_res {s t : State} (hi : Inv s) (h : tick s = .next t) :
    t.res = s.res ∨
    (s.SampleNext ∧ s.nextLine = s.et.level ∧ s.seq = ⟨.readBit, true, 39#6⟩ ∧ t.res.frame.valid = true) := by
  cases tick_effect h with
  | held => exact .inl rfl
  | idles => exact .inl rfl
  | polls hr hb hrun =>
    refine (pollTick_res (passTime 1 s)).imp_right fun ⟨hc, hl, hg, hs, hlast, hv⟩ => ?_
    have hcount := (hi.shape.pollInside hrun).1
    have hrange := hi.shape.bitIdxRange
    have hsample : s.et.pollCnt.toNat + 1 = s.cfg.pollUs := Nat.le_antisymm hcount (Nat.le_of_not_lt hc)
    have hidx : s.seq.bitIdx = 39#6 :=
      BitVec.eq_of_toNat_eq (Nat.le_antisymm (Nat.le_of_lt_succ hrange) (Nat.le_of_not_lt hlast))
    change s.seq.stage = .readBit at hg
    change s.seq.sub = true at hs
    exact ⟨⟨hb, hrun, hsample⟩, hl, by rw [← hg, ← hs, ← hidx], hv⟩
  | pulses => exact .inl (startPulseTick_res _)
  | checks _ _ hg => exact absurd hg hi.shape.noInstantStage.1
  | commits _ _ hg => exact absurd hg hi.shape.noInstantStage.2

/-- Driving `rst` keeps the results or clears them. -/
theorem driveRst_res (level : Bool) : (driveRst level s).res = s.res ∨ (driveRst level s).res = Results.clear := by
  unfold driveRst
  split
  · exact .inl rfl
  · split
    · exact .inr rfl
    · exact .inl rfl

/-- Settles O48: of the effects of a step, the microseconds apart, each keeps the results or clears them. -/
theorem resultsOnlyFromLastBit : Obligations.ResultsOnlyFromLastBit := by
  intro s t hi h hchanged hnonzero
  cases step_effect h with
  | outside b => exact absurd rfl hchanged
  | passes b ht => exact (hi.tick_res ht).resolve_left hchanged
  | @drivesRst b level =>
    obtain hsame | hclear := driveRst_res (s.setBus b) level
    · exact absurd hsame hchanged
    · exact absurd hclear hnonzero
  | dropped b => exact absurd rfl hchanged
  | writes b r v =>
    rw [writeReg_eq] at hchanged
    exact absurd rfl hchanged
  | accepts b _ _ hr hb he => exact absurd (exec_accepted (s := s.setBus b) hr hb he).res hnonzero
  | reports b => exact absurd (congrArg State.res (illegalCommand_eq (s.setBus b))) hnonzero

end Sys2Proof.Machine
end

section
/-! AWAIT, microsecond by microsecond (R73, R79). -/

namespace Sys2Proof.Machine

variable {s : State}

/-- An AWAIT accepted in `s`, `x` microseconds on, with no match yet. -/
def awaitView (s : State) (level : Bool) (budget x : Nat) : State :=
  { s with
    now := s.now + x
    env := { s.env with clock := s.env.clock + x }
    et := ⟨BitVec.ofNat 16 (x / s.cfg.pollUs * s.cfg.pollUs), BitVec.ofNat 16 budget, level, true,
      BitVec.ofNat 3 (x % s.cfg.pollUs)⟩
    res := Results.clear
    err := ErrReg.clear
    flags := { s.flags with busy := true, done := false } }

/-- A microsecond before the next sample instant: the remainder counts, the quotient stays (R79). -/
theorem succ_div_mod_of_lt {x p : Nat} (h : x % p + 1 < p) : (x + 1) % p = x % p + 1 ∧ (x + 1) / p = x / p := by
  have hmod : (x + 1) % p = x % p + 1 := by rw [← Nat.mod_add_mod, Nat.mod_eq_of_lt h]
  exact ⟨hmod, Nat.succ_div_of_mod_ne_zero (by rw [hmod]; exact Nat.succ_ne_zero _)⟩

/-- At a sample instant the remainder is 0 and the quotient steps (R79). -/
theorem succ_div_mod_of_eq {x p : Nat} (h : x % p + 1 = p) : (x + 1) % p = 0 ∧ (x + 1) / p = x / p + 1 := by
  have hmod : (x + 1) % p = 0 := by rw [← Nat.mod_add_mod, h, Nat.mod_self]
  exact ⟨hmod, Nat.succ_div_of_mod_eq_zero hmod⟩

section
variable {level : Bool} {budget x : Nat}

/-- `POLLCNT` counts up to any legal interval without overflow (R7). -/
theorem pollCnt_toNat (hc : s.cfg.Legal) : (BitVec.ofNat 3 (x % s.cfg.pollUs)).toNat = x % s.cfg.pollUs := by
  obtain ⟨⟨hlo, hhi⟩, -⟩ := hc
  have hlt := Nat.mod_lt x hlo
  rw [BitVec.toNat_ofNat, Nat.mod_eq_of_lt (by omega)]

/-- No sample instant: only `POLLCNT` moves. -/
theorem countPoll_awaitView (h : x % s.cfg.pollUs + 1 < s.cfg.pollUs) :
    countPoll (passTime 1 (awaitView s level budget x)) = awaitView s level budget (x + 1) := by
  obtain ⟨hmod, hdiv⟩ := succ_div_mod_of_lt h
  simp [countPoll_eq, passTime_eq, awaitView, hmod, hdiv, BitVec.ofNat_add, Nat.add_assoc]

/-- A sample instant: `ET_ELAPSED` moves on by the interval. -/
theorem reachSample_awaitView (h : x % s.cfg.pollUs + 1 = s.cfg.pollUs) :
    reachSample (passTime 1 (awaitView s level budget x)) = awaitView s level budget (x + 1) := by
  obtain ⟨hmod, hdiv⟩ := succ_div_mod_of_eq h
  simp [reachSample_eq, passTime_eq, awaitView, hmod, hdiv, BitVec.ofNat_add, Nat.succ_mul, Nat.add_assoc]

/-- Before the end of the budget the next sample fits (R73). -/
theorem sampleFits_awaitView (hw : budget < 65536) (hx : x < budget / s.cfg.pollUs * s.cfg.pollUs) :
    sampleFits (awaitView s level budget x) = true := by
  have hq : x / s.cfg.pollUs < budget / s.cfg.pollUs := Nat.div_lt_of_lt_mul (by rwa [Nat.mul_comm])
  have hfit : x / s.cfg.pollUs * s.cfg.pollUs + s.cfg.pollUs ≤ budget :=
    calc x / s.cfg.pollUs * s.cfg.pollUs + s.cfg.pollUs
        = (x / s.cfg.pollUs + 1) * s.cfg.pollUs := (Nat.succ_mul _ _).symm
      _ ≤ budget / s.cfg.pollUs * s.cfg.pollUs := Nat.mul_le_mul_right _ hq
      _ ≤ budget := Nat.div_mul_le_self _ _
  refine decide_eq_true ?_
  show (BitVec.ofNat 16 (x / s.cfg.pollUs * s.cfg.pollUs)).toNat + s.cfg.pollUs ≤ (BitVec.ofNat 16 budget).toNat
  rwa [ofNat16_toNat hw, ofNat16_toNat (by omega)]

/-- One microsecond of an AWAIT that has seen no match (R79). -/
theorem tick_awaitView (hi : Inv s) (hr : s.rst = false) (hb : s.flags.busy = false) (hw : budget < 65536)
    (hx : x + 1 < budget / s.cfg.pollUs * s.cfg.pollUs)
    (hmiss : ∀ j, 1 ≤ j → j * s.cfg.pollUs ≤ x + 1 → s.env.lineAt (s.env.clock + j * s.cfg.pollUs) ≠ level) :
    tick (awaitView s level budget x) = .next (awaitView s level budget (x + 1)) := by
  have hg : (awaitView s level budget x).seq.stage = .idle := hi.stage_idle hb
  have hcnt : (passTime 1 (awaitView s level budget x)).et.pollCnt.toNat = x % s.cfg.pollUs :=
    pollCnt_toNat hi.shape.legal
  rw [tick_wait (awaitView s level budget x) hr rfl rfl (by simp [hg]) (by simp [hg]) (by simp [hg])]
  by_cases hc : x % s.cfg.pollUs + 1 < s.cfg.pollUs
  · rw [pollTick, if_pos (by rwa [hcnt]), countPoll_awaitView hc]
  · have hlt := Nat.mod_lt x hi.shape.legal.1.1
    have hsample : x % s.cfg.pollUs + 1 = s.cfg.pollUs := by omega
    obtain ⟨hmod, hdiv⟩ := succ_div_mod_of_eq hsample
    have hinstant : (x / s.cfg.pollUs + 1) * s.cfg.pollUs = x + 1 := by
      rw [← hdiv, Nat.div_mul_cancel (Nat.dvd_of_mod_eq_zero hmod)]
    have hline := hmiss (x / s.cfg.pollUs + 1) (Nat.succ_pos _) (Nat.le_of_eq hinstant)
    rw [hinstant] at hline
    have hne : ¬ ((awaitView s level budget (x + 1)).line == (awaitView s level budget (x + 1)).et.level) = true :=
      fun he => hline (beq_iff_eq.mp he)
    rw [pollTick, if_neg (by rwa [hcnt]), reachSample_awaitView hsample]
    simp only [if_neg hne, if_pos (sampleFits_awaitView hw hx)]

/-- AWAIT up to any instant before the end of its budget: induction on the microseconds. -/
theorem runTicks_awaitView (hi : Inv s) (hr : s.rst = false) (hb : s.flags.busy = false) (hw : budget < 65536)
    (hx : x < budget / s.cfg.pollUs * s.cfg.pollUs)
    (hmiss : ∀ j, 1 ≤ j → j * s.cfg.pollUs ≤ x → s.env.lineAt (s.env.clock + j * s.cfg.pollUs) ≠ level) :
    runTicks x (awaitView s level budget 0) = .next (awaitView s level budget x) := by
  induction x with
  | zero => rfl
  | succ x ih =>
    have hrun := ih (Nat.lt_of_succ_lt hx) fun j h1 hj => hmiss j h1 (Nat.le_succ_of_le hj)
    rw [runTicks_add x 1 hrun, runTicks_succ _ 0 (tick_awaitView hi hr hb hw hx hmiss)]
    rfl

end

/-- Settles O23. -/
theorem awaitLiveView : Obligations.AwaitLiveView := by
  intro s level budget x hi hr hb hw hx hmiss
  refine ⟨awaitView s level budget 0, ?_, runTicks_awaitView hi hr hb hw hx hmiss⟩
  have hfit : s.cfg.pollUs ≤ budget := by
    by_contra hn
    rw [Nat.div_eq_of_lt (Nat.lt_of_not_le hn), Nat.zero_mul] at hx
    exact Nat.not_lt_zero x hx
  rw [exec_await_fits s hr hb level (by rwa [ofNat16_toNat hw])]
  simp [awaitView]

end Sys2Proof.Machine
end

section
/-! Which accesses have a meaning (R40), and that nothing else is refused and nothing faults. -/

namespace Sys2Proof.Machine

variable (s : State)

/-- An access reaches no register exactly when it is no aligned word inside the map (R40). -/
theorem HostReg.accessed_eq_none_iff (size : Size) (off : Nat) :
    HostReg.accessed size off = none ↔ ¬ (size = .word ∧ MappedOffset off) := by
  cases size with
  | word =>
    rw [← not_iff_not, not_not, ← ne_eq, Option.ne_none_iff_exists', eq_self, true_and]
    constructor
    · rintro ⟨r, hr⟩
      change HostReg.all.find? (fun r => r.offset == off) = some r at hr
      exact (mappedOffset_iff off).mpr ⟨r, List.mem_of_find?_eq_some hr, by simpa using List.find?_some hr⟩
    · exact HostReg.exists_accessed_of_mapped
  | half | byte => simp [HostReg.accessed]

/-! An access that reaches a register has a next state. -/

theorem exec_next (i : Instr) : ∃ t, exec i s = .next t := by
  cases i <;> exact ⟨_, rfl⟩

theorem deliverWord_next (w : Word) : ∃ t, deliverWord w s = .next t := by
  cases hd : decode w with
  | command i => exact deliverWord_command s hd ▸ exec_next s i
  | illegal _ => exact ⟨_, deliverWord_illegal s hd⟩

theorem hostWrite_next (r : HostReg) (v : Word) : ∃ t, hostWrite r v s = .next t := by
  by_cases hc : r = .cmd
  · subst hc
    exact deliverWord_next s v
  · exact ⟨_, hostWrite_register s r v hc⟩

theorem hostStep_write_goesOn {size : Size} {off : Nat} (v : Word) (rest : List HostAction)
    (h : size = .word ∧ MappedOffset off) : ∃ t, hostStep (.write size off v) rest s = .next t := by
  obtain ⟨rfl, ho⟩ := h
  obtain ⟨r, hr⟩ := HostReg.exists_accessed_of_mapped ho
  rw [hostStep_write s v rest hr]
  exact hostWrite_next _ r v

theorem hostStep_read_goesOn {size : Size} {off : Nat} (rest : List HostAction)
    (h : size = .word ∧ MappedOffset off) : ∃ t, hostStep (.read size off) rest s = .next t := by
  obtain ⟨rfl, ho⟩ := h
  obtain ⟨r, hr⟩ := HostReg.exists_accessed_of_mapped ho
  exact ⟨_, hostStep_read s rest hr⟩

/-- An action to which R40 gives no meaning is refused. -/
theorem hostStep_refused {a : HostAction} (rest : List HostAction) (h : ¬ a.WellFormed) :
    hostStep a rest s = .refused .undefinedAccess := by
  cases a with
  | write size off v => simp only [hostStep, (HostReg.accessed_eq_none_iff size off).mpr h]
  | read size off => simp only [hostStep, (HostReg.accessed_eq_none_iff size off).mpr h]
  | wait | gap | rst => exact absurd trivial h

/-- What goes on is not refused. -/
theorem ne_refused_of_next {o : Host.Outcome State Fault Refusal} (h : ∃ t, o = .next t) (r : Refusal) :
    o ≠ .refused r := by
  obtain ⟨t, rfl⟩ := h
  exact nofun

/-- Settles O10: a refusal follows from the access, and a defined access goes on. -/
theorem undefinedAccessRefused : Obligations.UndefinedAccessRefused := by
  constructor
  · intro s size off v rest hs
    rw [step_action s hs]
    exact ⟨fun h hw => ne_refused_of_next (hostStep_write_goesOn s v rest hw) _ h,
      fun h => hostStep_refused s rest (a := .write size off v) h⟩
  · intro s size off rest hs
    rw [step_action s hs]
    exact ⟨fun h hw => ne_refused_of_next (hostStep_read_goesOn s rest hw) _ h,
      fun h => hostStep_refused s rest (a := .read size off) h⟩

variable {s}

/-- A microsecond has a next state, in reset and in every mode. -/
theorem Inv.tick_next (hi : Inv s) : ∃ t, tick s = .next t := by
  cases hr : s.rst with
  | true => exact ⟨_, tick_reset s hr⟩
  | false =>
    obtain ⟨t, ht, -⟩ := (hi.mode hr).tick_next
    exact ⟨t, ht⟩

/-- An action to which R40 gives a meaning has a next state. -/
theorem Inv.hostStep_next (hi : Inv s) {a : HostAction} (rest : List HostAction) (ha : a.WellFormed) :
    ∃ t, hostStep a rest s = .next t := by
  cases a with
  | write size off v => exact hostStep_write_goesOn s v rest ha
  | read size off => exact hostStep_read_goesOn s rest ha
  | wait =>
    unfold hostStep
    dsimp only
    split
    · exact (hi.of_setBus _).tick_next
    · exact ⟨_, rfl⟩
  | gap n =>
    cases n with
    | zero => exact ⟨_, rfl⟩
    | succ n => exact (hi.of_setBus _).tick_next
  | rst level => exact ⟨_, rfl⟩

/-- Settles O44, by the action at the head of the host's list and whether R40 gives it a meaning. -/
theorem stepNeverStuck : Obligations.StepNeverStuck := by
  intro s hi
  cases hs : s.bus.script with
  | nil =>
    obtain ⟨t, ht⟩ := hi.tick_next
    rw [step_empty s hs, ht]
    exact ⟨nofun, nofun⟩
  | cons a rest =>
    rw [step_action s hs]
    by_cases ha : a.WellFormed
    · obtain ⟨t, ht⟩ := hi.hostStep_next rest ha
      rw [ht]
      exact ⟨nofun, nofun⟩
    · rw [hostStep_refused s rest ha]
      exact ⟨nofun, fun _ _ => ⟨a, rest, rfl, ha⟩⟩

end Sys2Proof.Machine
end

section
/-! The block while a command runs: writes are dropped, reads show the instant, and only time moves it on (R43, R44, R113). -/

namespace Sys2Proof.Machine

variable {s t : State}

/-- Settles O19. -/
theorem commandsDroppedWhileBusy : Obligations.CommandsDroppedWhileBusy := fun i s =>
  ⟨fun hr hb => exec_busy s hr hb i, fun hr => exec_reset s hr i⟩

/-- A write to a mapped offset leaves `OVR` and the host's own record (R43). -/
theorem step_write_busy (hr : s.rst = false) (hb : s.flags.busy = true) {off : Nat} {v : Word} {rest : List HostAction}
    (ho : MappedOffset off) (h : s.bus.script = .write .word off v :: rest) :
    ∃ t : State, step s = .next t ∧
      t = { s with bus := { s.bus with script := rest, seen := t.bus.seen }, flags := { s.flags with ovr := true } } := by
  obtain ⟨r, ha⟩ := HostReg.exists_accessed_of_mapped ho
  have heq := noteWrite_eq (popAction rest s) r
  have hr' : (noteWrite r (popAction rest s)).rst = false := (congrArg State.rst heq).trans hr
  have hb' : (noteWrite r (popAction rest s)).flags.busy = true := (congrArg (fun u => u.flags.busy) heq).trans hb
  exact ⟨overrun (noteWrite r (popAction rest s)),
    by rw [step_action s h, hostStep_write s v rest ha, hostWrite_busy _ r v hr' hb'], congrArg overrun heq⟩

theorem tick_ovr (h : tick s = .next t) : t.flags.ovr = s.flags.ovr := by
  cases hr : s.rst with
  | true =>
    rw [tick_reset s hr] at h
    cases h
    rfl
  | false => exact (tick_keeps hr h).ovr

/-- `OVR` is sticky: no effect of a step clears it but an asserted `rst` (R43). -/
theorem StepEffect.ovr (h : StepEffect s t) (hn : ∀ rest, s.bus.script ≠ .rst true :: rest)
    (ho : s.flags.ovr = true) : t.flags.ovr = true := by
  cases h with
  | outside b => exact ho
  | passes b ht => exact (tick_ovr ht).trans ho
  | @drivesRst b level rest hs =>
    cases level with
    | true => exact absurd hs (hn rest)
    | false => exact (congrArg Flags.ovr (driveRst_false_sameOutcome s b).flags).trans ho
  | dropped b => rfl
  | writes b r v =>
    rw [writeReg_eq]
    exact ho
  | accepts b _ _ _ hb he => exact (exec_keeps (s := s.setBus b) hb he).ovr.trans ho
  | reports b =>
    rw [illegalCommand_eq]
    exact ho

/-- Settles O9. -/
theorem writeWhileBusyOverruns : Obligations.WriteWhileBusyOverruns :=
  ⟨fun _ _ _ _ hr hb ho h => step_write_busy hr hb ho h, fun _ _ ho hn h => (step_effect h).ovr hn ho⟩

/-! Reads. -/

/-- Before the command has completed a read loads the bus and is not recorded (R42, R44). -/
theorem step_read_notDone (hd : s.flags.done = false) {r : HostReg} {rest : List HostAction}
    (h : s.bus.script = .read .word r.offset :: rest) :
    step s = .next { s with bus := { s.bus with script := rest, rdata := readReg r s } } := by
  obtain ⟨hread, -⟩ := accessesTouchOnlyTheirRegister
  rw [hread s r rest h, noteRead_notDone s r hd]

/-- With no result delivered the result registers read 0 (R24, R25). -/
theorem readReg_noResult (h : s.res = Results.clear) :
    readReg .frameLo s = 0#32 ∧ readReg .frameHi s = 0#32 ∧ readReg .hum s = 0#32 ∧ readReg .temp s = 0#32 := by
  simp only [readReg, h]
  decide

/-- Settles O13: the fields of `STATUS` and the register map, with what the invariant says of a busy block. -/
theorem readsWhileBusyAreLive : Obligations.ReadsWhileBusyAreLive := by
  intro s hi hb
  have hdone := hi.spec.busyNotDone hb
  obtain ⟨hres, herr⟩ := hi.shape.busyClear hb
  obtain ⟨-, -, -, -, hstatus⟩ := statusFields
  obtain ⟨hBusy, hDone, hAtomic, -, -, -, -, hStage, hSub, hIdx, hOut, hOe, hCode, -⟩ := hstatus s
  obtain ⟨-, -, hmap⟩ := registerMapReads
  obtain ⟨-, hPin, hAck, hReady, hData, hLow, hHigh, hDur, -⟩ := hmap s
  obtain ⟨hLo, hHi, hHum, hTemp⟩ := readReg_noResult hres
  exact ⟨fun r rest h => step_read_notDone hdone h, hBusy.trans hb, hDone.trans hdone, by rw [hCode, herr]; rfl, hAtomic,
    hStage, hSub, hIdx, hOut, hOe, hDur, hLo, hHi, hHum, hTemp, hPin, hAck, hReady, hData, hLow, hHigh⟩

/-! What a step can do to a running command. -/

/-- Releasing a released `rst` changes nothing. -/
theorem driveRst_false_released (hr : s.rst = false) : driveRst false s = s := by
  have hsame := driveRst_same s
  rwa [hr] at hsame

/-- Without a reset a step of a busy block touches the host's bus, marks `OVR`, or lets a microsecond pass. -/
theorem StepEffect.of_busy (h : StepEffect s t) (hr : s.rst = false) (hb : s.flags.busy = true)
    (hn : ∀ rest, s.bus.script ≠ .rst true :: rest) :
    (∃ b, t = s.setBus b) ∨ (∃ b, t = overrun (s.setBus b)) ∨ ∃ b u, tick s = .next u ∧ t = u.setBus b := by
  cases h with
  | outside b => exact .inl ⟨b, rfl⟩
  | passes b ht => exact .inr (.inr ⟨b, _, ht, rfl⟩)
  | @drivesRst b level rest hs =>
    cases level with
    | true => exact absurd hs (hn rest)
    | false => exact .inl ⟨b, driveRst_false_released (s := s.setBus b) hr⟩
  | dropped b => exact .inr (.inl ⟨b, rfl⟩)
  | writes _ _ _ _ hidle | accepts _ _ _ _ hidle | reports _ _ _ _ hidle => simp [hb] at hidle

/-- Settles O46: of the three things a step can do to a busy block, only the microsecond moves the command, and it takes time. -/
theorem runningCommandUndisturbed : Obligations.RunningCommandUndisturbed := by
  intro s t hr hb hn h
  obtain ⟨b, rfl⟩ | ⟨b, rfl⟩ | ⟨b, u, ht, rfl⟩ := (step_effect h).of_busy hr hb hn
  · exact ⟨rfl, hr, rfl, fun _ => rfl⟩
  · exact ⟨rfl, hr, rfl, fun _ => rfl⟩
  · have hk := tick_keeps hr ht
    have hnow : u.now = s.now + 1 := hk.now
    refine ⟨hk.cfg, hk.rst.trans hr, hk.regs, fun hstill => ?_⟩
    exact absurd (hnow.symm.trans hstill) (Nat.succ_ne_self s.now)

end Sys2Proof.Machine
end

section
/-! DRVL, DRVH and REL (R86 to R89). -/

namespace Sys2Proof.Machine

variable (s : State)

/-- What a line command leaves of an idle block, the record of drives apart. -/
theorem complete_drivePad_accept_idle (hb : s.flags.busy = false) (p : Pad) :
    complete (drivePad p (accept s)) =
      { s with
        pad := p, res := Results.clear, err := ErrReg.clear
        et := { s.et with elapsed := 0#16 }, flags := { s.flags with done := true }
        env := { s.env with drives := (complete (drivePad p (accept s))).env.drives } } := by
  have hf : { s.flags with busy := false, done := true } = { s.flags with done := true } := by rw [← hb]
  rw [complete_drivePad_accept, hf]

/-- Settles O18: acceptance by pad value, the drop by `exec_busy`, and the worked examples from the reset state. -/
theorem lineCommandsSetLine : Obligations.LineCommandsSetLine := by
  refine ⟨fun s hr hb => ⟨?_, ?_, ?_⟩, fun s i hr hb _ => exec_busy s hr hb i, by decide, by decide, by decide,
    fun t ht => ?_, fun t ht => ?_⟩
  · exact ⟨_, exec_drvl s hr hb, complete_drivePad_accept_idle s hb Pad.L⟩
  · exact ⟨_, exec_drvh s hr hb, complete_drivePad_accept_idle s hb Pad.H⟩
  · exact ⟨_, exec_rel s hr hb, complete_drivePad_accept_idle s hb Pad.Z⟩
  · rw [exec_drvl State.reset rfl rfl] at ht
    cases ht
    decide
  · rw [exec_drvh State.reset rfl rfl] at ht
    cases ht
    refine ⟨by decide, fun u hu => ?_⟩
    rw [exec_rel _ rfl rfl] at hu
    cases hu
    decide

end Sys2Proof.Machine
end

section
/-! Packing (R104). -/

namespace Sys2Proof.Machine

/-- Byte `k` read bit by bit: each bit to arrive is appended below those before it (R104). -/
theorem packByte_eq_bits (buf : BitBuffer) (k : Nat) :
    packByte buf k =
      BitVec.ofNat 8 (Nat.bit (buf.getLsbD (8 * k + 7)) (Nat.bit (buf.getLsbD (8 * k + 6))
        (Nat.bit (buf.getLsbD (8 * k + 5)) (Nat.bit (buf.getLsbD (8 * k + 4)) (Nat.bit (buf.getLsbD (8 * k + 3))
          (Nat.bit (buf.getLsbD (8 * k + 2)) (Nat.bit (buf.getLsbD (8 * k + 1)) (Nat.bit (buf.getLsbD (8 * k)) 0)))))))) := by
  rw [packByte]
  congr 1
  simp only [packedBit, Nat.bit_val, Nat.add_zero]
  omega

/-- Bit `8k + j` to arrive is bit `7 - j` of byte `k` (R104). -/
theorem packByte_getLsbD (buf : BitBuffer) (k : Nat) {j : Nat} (hj : j < 8) :
    (packByte buf k).getLsbD (7 - j) = buf.getLsbD (8 * k + j) := by
  rw [packByte_eq_bits, BitVec.getLsbD_ofNat]
  interval_cases j <;> simp [Nat.testBit_bit_succ]

/-- The bytes of the packed frame, by number. -/
theorem pack_byte (buf : BitBuffer) {k : Nat} (hk : k < 5) : (pack buf).byte k = packByte buf k := by
  interval_cases k <;> rfl

/-- Settles O33. -/
theorem packMostSignificantFirst : Obligations.PackMostSignificantFirst := by
  intro buf k j hk hj
  rw [pack_byte buf hk, packByte_getLsbD buf k hj]

end Sys2Proof.Machine
end

section
/-! The fields of a command word: a word is its fields in order (R54, R55, R56), and each field is a digit of its number. -/

namespace Sys2Proof

open Machine

variable (w : Word)

/-! A word is its fields in the order of its format. -/

theorem append_fieldsN : opField w ++ reservedN w = w := by
  rw [opField, reservedN, BitVec.extractLsb'_append_extractLsb'_eq_extractLsb' (start₂ := 28) (len₁ := 28) rfl]
  exact BitVec.extractLsb'_eq_self

theorem ofBool_getLsbD_eq_extractLsb' (i : Nat) : BitVec.ofBool (w.getLsbD i) = w.extractLsb' i 1 := by
  ext j hj
  obtain rfl : j = 0 := by omega
  simp

theorem append_fieldsW :
    opField w ++ reservedW w ++ BitVec.ofBool (levelField w) ++ BitVec.ofNat 16 (budgetField w) = w := by
  simp (disch := decide) only [opField, reservedW, levelField, budgetField, ofBool_getLsbD_eq_extractLsb',
    BitVec.ofNat_toNat, BitVec.setWidth_eq, BitVec.extractLsb'_append_extractLsb'_eq_extractLsb']
  exact BitVec.extractLsb'_eq_self

theorem append_fieldsQ :
    opField w ++ reservedQ w ++ BitVec.ofBool (wantTField w) ++ BitVec.ofBool (wantHField w) = w := by
  simp (disch := decide) only [opField, reservedQ, wantTField, wantHField, ofBool_getLsbD_eq_extractLsb',
    BitVec.extractLsb'_append_extractLsb'_eq_extractLsb']
  exact BitVec.extractLsb'_eq_self

/-! So a word with zeros in the reserved bits of its format is the encoder's. -/

theorem encodeN_of_fields {w : Word} (h : reservedN w = 0#28) : encodeN (opField w) = w := by
  rw [encodeN, ← h, append_fieldsN]

theorem encodeW_of_fields {w : Word} (hop : opField w = 4#4) (h : reservedW w = 0#11) :
    encodeW (levelField w) (budgetField w) = w := by
  rw [encodeW, ← hop, ← h, append_fieldsW]

theorem encodeQ_of_fields {w : Word} (hop : opField w = 5#4) (h : reservedQ w = 0#26) :
    encodeQ (wantHField w) (wantTField w) = w := by
  rw [encodeQ, ← hop, ← h, append_fieldsQ]

/-! The fields of the encoder's words. Formats W and Q are cut at their fields, as words whose width is the sum of the fields. -/

theorem encodeW_extractLsb' (level : Bool) (budget start len : Nat) :
    (encodeW level budget).extractLsb' start len =
      (4#4 ++ 0#11 ++ BitVec.ofBool level ++ BitVec.ofNat 16 budget).extractLsb' start len := rfl

theorem encodeW_fields (level : Bool) (budget : Nat) :
    opField (encodeW level budget) = 4#4 ∧ reservedW (encodeW level budget) = 0#11 ∧
      levelField (encodeW level budget) = level ∧ budgetField (encodeW level budget) = budget % 65536 := by
  simp (disch := decide) only [opField, reservedW, levelField, budgetField, getLsbD_eq_extractLsb', encodeW_extractLsb',
    BitVec.extractLsb'_append_eq_of_le, BitVec.extractLsb'_append_eq_of_add_le]
  simp

theorem encodeQ_extractLsb' (wantH wantT : Bool) (start len : Nat) :
    (encodeQ wantH wantT).extractLsb' start len =
      (5#4 ++ 0#26 ++ BitVec.ofBool wantT ++ BitVec.ofBool wantH).extractLsb' start len := rfl

theorem encodeQ_fields (wantH wantT : Bool) :
    opField (encodeQ wantH wantT) = 5#4 ∧ reservedQ (encodeQ wantH wantT) = 0#26 ∧
      wantHField (encodeQ wantH wantT) = wantH ∧ wantTField (encodeQ wantH wantT) = wantT := by
  simp (disch := decide) only [opField, reservedQ, wantHField, wantTField, getLsbD_eq_extractLsb', encodeQ_extractLsb',
    BitVec.extractLsb'_append_eq_of_le, BitVec.extractLsb'_append_eq_of_add_le]
  simp

/-! The fields as digits of the word's number. -/

theorem opField_toNat : (opField w).toNat = w.toNat / 2 ^ 28 := by
  rw [opField, BitVec.extractLsb'_toNat, Nat.shiftRight_eq_div_pow]
  have := w.isLt
  omega

theorem budgetField_lt : budgetField w < 65536 := (w.extractLsb' 0 16).isLt

theorem reservedN_toNat : (reservedN w).toNat = w.toNat % 2 ^ 28 := by
  rw [reservedN, BitVec.extractLsb'_toNat, Nat.shiftRight_zero]

theorem reservedW_toNat : (reservedW w).toNat = w.toNat % 2 ^ 28 / 2 ^ 17 := by
  rw [reservedW, BitVec.extractLsb'_toNat, Nat.shiftRight_eq_div_pow]
  omega

theorem reservedQ_toNat : (reservedQ w).toNat = w.toNat % 2 ^ 28 / 2 ^ 2 := by
  rw [reservedQ, BitVec.extractLsb'_toNat, Nat.shiftRight_eq_div_pow]
  omega

end Sys2Proof
end

section
/-! The decoder against the encoder, the opcode map and the reasons for rejection (R60 to R65). -/

namespace Sys2Proof

variable {w : Word}

/-! The decoder, forwards. -/

theorem decode_await (hop : opField w = 4#4) (h : reservedW w = 0#11) :
    decode w = .command (.await (levelField w) (budgetField w)) := by
  simp [decode, hop, h]

theorem decode_acq (hop : opField w = 5#4) (h : reservedQ w = 0#26) :
    decode w = .command (.acq (wantHField w) (wantTField w)) := by
  simp [decode, hop, h]

/-- Settles O1: by format; a word without operands evaluates, and the operands of the others stand in their fields. -/
theorem decodeEncodeRoundTrip : Obligations.DecodeEncodeRoundTrip := by
  intro i hi
  cases i with
  | drvl | drvh | rel => decide
  | await level budget =>
    obtain ⟨hop, hres, hlevel, hbudget⟩ := encodeW_fields level budget
    rw [encode, decode_await hop hres, hlevel, hbudget, Nat.mod_eq_of_lt hi]
  | acq wantH wantT =>
    obtain ⟨hop, hres, hH, hT⟩ := encodeQ_fields wantH wantT
    rw [encode, decode_acq hop hres, hH, hT]

/-- Settles O5. -/
theorem decodeSpecWords : Obligations.DecodeSpecWords := by
  unfold Obligations.DecodeSpecWords
  decide

/-- Settles O6: the expansions of R68 are the definitions, and the words of ACQ evaluate. -/
theorem pseudoInstructionExpansions : Obligations.PseudoInstructionExpansions :=
  ⟨fun _ => rfl, fun _ => rfl, rfl, rfl, rfl, fun _ _ => rfl⟩

/-! The decoder, backwards. -/

/-- What the decoder can answer, and what the fields of the word then hold. -/
inductive Decodes (w : Word) : Decoded → Prop
  | drvl (hop : opField w = 1#4) (h : reservedN w = 0#28) : Decodes w (.command .drvl)
  | drvh (hop : opField w = 2#4) (h : reservedN w = 0#28) : Decodes w (.command .drvh)
  | rel (hop : opField w = 3#4) (h : reservedN w = 0#28) : Decodes w (.command .rel)
  | await (hop : opField w = 4#4) (h : reservedW w = 0#11) :
      Decodes w (.command (.await (levelField w) (budgetField w)))
  | acq (hop : opField w = 5#4) (h : reservedQ w = 0#26) :
      Decodes w (.command (.acq (wantHField w) (wantTField w)))
  | reservedBitsN (hop : opField w = 1#4 ∨ opField w = 2#4 ∨ opField w = 3#4) (h : reservedN w ≠ 0#28) :
      Decodes w (.illegal .reservedBits)
  | reservedBitsW (hop : opField w = 4#4) (h : reservedW w ≠ 0#11) : Decodes w (.illegal .reservedBits)
  | reservedBitsQ (hop : opField w = 5#4) (h : reservedQ w ≠ 0#26) : Decodes w (.illegal .reservedBits)
  | opcode (h1 : opField w ≠ 1#4) (h2 : opField w ≠ 2#4) (h3 : opField w ≠ 3#4) (h4 : opField w ≠ 4#4)
      (h5 : opField w ≠ 5#4) : Decodes w (.illegal .opcode)

theorem decode_decodes (w : Word) : Decodes w (decode w) := by
  unfold decode
  split_ifs with h1 hr h2 hr h3 hr h4 hr h5 hr
  · exact .drvl h1 hr
  · exact .reservedBitsN (.inl h1) hr
  · exact .drvh h2 hr
  · exact .reservedBitsN (.inr (.inl h2)) hr
  · exact .rel h3 hr
  · exact .reservedBitsN (.inr (.inr h3)) hr
  · exact .await h4 hr
  · exact .reservedBitsW h4 hr
  · exact .acq h5 hr
  · exact .reservedBitsQ h5 hr
  · exact .opcode h1 h2 h3 h4 h5

theorem Decodes.encode_eq {i : Instr} (h : Decodes w (.command i)) : i.WellFormed ∧ encode i = w := by
  cases h with
  | drvl hop h | drvh hop h | rel hop h => exact ⟨trivial, by rw [encode, ← hop, encodeN_of_fields h]⟩
  | await hop h => exact ⟨budgetField_lt w, encodeW_of_fields hop h⟩
  | acq hop h => exact ⟨trivial, encodeQ_of_fields hop h⟩

/-- Settles O2: the fields of a word that decodes are all of the word. -/
theorem encodeDecodeRoundTrip : Obligations.EncodeDecodeRoundTrip := fun w _ h =>
  (h ▸ decode_decodes w : Decodes w (.command _)).encode_eq

/-! The opcode map. -/

/-- The word of a well-formed instruction selects the row that bears its mnemonic (R60). -/
theorem selectsRow (i : Instr) : Laws.SelectsRow.Statement i := by
  cases i with
  | drvl => exact Laws.SelectsRow.drvl
  | drvh => exact Laws.SelectsRow.drvh
  | rel => exact Laws.SelectsRow.rel
  | await level budget => exact Laws.SelectsRow.await level budget
  | acq wantH wantT => exact Laws.SelectsRow.acq wantH wantT

/-- A word that decodes selects a row of the opcode map. -/
theorem exists_selects_of_decode {i : Instr} (h : decode w = .command i) : ∃ r ∈ opcodeMap, r.Selects w := by
  obtain ⟨hwf, rfl⟩ := encodeDecodeRoundTrip w i h
  obtain ⟨r, hr, -, hsel⟩ := selectsRow i hwf
  exact ⟨r, hr, hsel⟩

/-- A field that the mask keeps whole is the pattern's. -/
theorem extractLsb'_of_masked {mask pattern : Word} {start len : Nat}
    (hm : mask.extractLsb' start len = BitVec.allOnes len) (h : w &&& mask = pattern) :
    w.extractLsb' start len = pattern.extractLsb' start len := by
  rw [← h, BitVec.extractLsb'_and, hm, BitVec.and_allOnes]

/-- A mask that keeps everything leaves one word. -/
theorem eq_of_whole_masked {pattern : Word} (h : w &&& 0xFFFFFFFF#32 = pattern) : w = pattern :=
  (BitVec.and_allOnes (x := w)).symm.trans h

/-- A word that selects a row decodes to the command the row names: the mask keeps OP and the reserved bits of the
row's format. -/
theorem exists_decode_of_selects {r : Row} (hr : r ∈ opcodeMap) (h : r.Selects w) :
    ∃ i, decode w = .command i ∧ i.mnemonic = r.mnemonic := by
  simp only [opcodeMap, List.mem_cons, List.not_mem_nil, or_false] at hr
  obtain rfl | rfl | rfl | rfl | rfl := hr
  · exact ⟨.drvl, by rw [eq_of_whole_masked h]; decide, rfl⟩
  · exact ⟨.drvh, by rw [eq_of_whole_masked h]; decide, rfl⟩
  · exact ⟨.rel, by rw [eq_of_whole_masked h]; decide, rfl⟩
  · exact ⟨_, decode_await (extractLsb'_of_masked (by decide) h) (extractLsb'_of_masked (by decide) h), rfl⟩
  · exact ⟨_, decode_acq (extractLsb'_of_masked (by decide) h) (extractLsb'_of_masked (by decide) h), rfl⟩

theorem exists_decode_iff_exists_selects (w : Word) :
    (∃ i, decode w = .command i) ↔ ∃ r ∈ opcodeMap, r.Selects w :=
  ⟨fun ⟨_, h⟩ => exists_selects_of_decode h, fun ⟨_, hr, h⟩ => (exists_decode_of_selects hr h).imp fun _ hi => hi.1⟩

/-- The row a word selects names its command. -/
theorem mnemonic_eq_of_selects {i : Instr} (hd : decode w = .command i) {r : Row} (hr : r ∈ opcodeMap)
    (h : r.Selects w) : r.mnemonic = i.mnemonic := by
  obtain ⟨j, hj, hname⟩ := exists_decode_of_selects hr h
  cases hd.symm.trans hj
  exact hname.symm

/-- Settles O3: two rows that a word selects both name its command, and no two rows have one name. -/
theorem decoderFollowsOpcodeMap : Obligations.DecoderFollowsOpcodeMap := by
  refine ⟨rfl, exists_decode_iff_exists_selects, fun w i hd r hr h => mnemonic_eq_of_selects hd hr h,
    fun w r₁ hr₁ r₂ hr₂ h₁ h₂ => ?_⟩
  have hnames : ∀ a ∈ opcodeMap, ∀ b ∈ opcodeMap, a.mnemonic = b.mnemonic → a = b := by decide
  obtain ⟨i, hd, hname⟩ := exists_decode_of_selects hr₁ h₁
  exact hnames r₁ hr₁ r₂ hr₂ (hname.symm.trans (mnemonic_eq_of_selects hd hr₂ h₂).symm)

/-! Rejection. -/

theorem exists_illegal_iff_not_exists_command (w : Word) :
    (∃ r, decode w = .illegal r) ↔ ¬ ∃ i, decode w = .command i := by
  cases decode w <;> simp

/-- Why the decoder rejects a word, by the fields. -/
theorem Decodes.illegal_iff {d : Decoded} (h : Decodes w d) :
    (d = .illegal .opcode ↔ w.toNat / 2 ^ 28 = 0 ∨ 6 ≤ w.toNat / 2 ^ 28) ∧
    (d = .illegal .reservedBits ↔
      (1 ≤ w.toNat / 2 ^ 28 ∧ w.toNat / 2 ^ 28 ≤ 3 ∧ w.toNat % 2 ^ 28 ≠ 0) ∨
      (w.toNat / 2 ^ 28 = 4 ∧ w.toNat % 2 ^ 28 / 2 ^ 17 ≠ 0) ∨
      (w.toNat / 2 ^ 28 = 5 ∧ w.toNat % 2 ^ 28 / 2 ^ 2 ≠ 0)) := by
  rw [← opField_toNat, ← reservedQ_toNat, ← reservedW_toNat, ← reservedN_toNat]
  cases h with
  | drvl hop h | drvh hop h | rel hop h | await hop h | acq hop h => simp [hop, h]
  | reservedBitsN hop h =>
    have h0 := BitVec.toNat_ne_iff_ne.mpr h
    obtain hop | hop | hop := hop <;> simpa [hop] using h0
  | reservedBitsW hop h | reservedBitsQ hop h => simpa [hop] using BitVec.toNat_ne_iff_ne.mpr h
  | opcode h1 h2 h3 h4 h5 =>
    simp only [ne_eq, BitVec.toNat_eq, BitVec.toNat_ofNat] at h1 h2 h3 h4 h5
    simp only [true_iff, reduceCtorEq, Decoded.illegal.injEq, false_iff]
    omega

/-- Settles O4: the reasons by the fields of the word, and a word is illegal when it is no command. -/
theorem illegalWordsByReason : Obligations.IllegalWordsByReason := by
  intro w
  obtain ⟨hopcode, hreserved⟩ := (decode_decodes w).illegal_iff
  refine ⟨hopcode, hreserved, ?_⟩
  rw [exists_illegal_iff_not_exists_command, exists_decode_iff_exists_selects]
  push Not
  rfl

end Sys2Proof
end

section
/-! An illegal word written to `CMD` (R63), and WAIT (R67). -/

namespace Sys2Proof.Machine

variable (s : State)

/-- What an illegal word does to an idle block. -/
theorem deliverWord_illegal_idle {w : Word} {r : Reject} (hd : decode w = .illegal r) (hr : s.rst = false)
    (hb : s.flags.busy = false) :
    deliverWord w s = .next
      { s with
        res := Results.clear
        et := { s.et with elapsed := 0#16 }
        err := ⟨.illegalCommand, 0#6⟩
        flags := { s.flags with done := true } } := by
  have hf : { s.flags with busy := false, done := true } = { s.flags with done := true } := by rw [← hb]
  rw [deliverWord_illegal s hd, writeGate_open s _ hr hb, illegalCommand_eq, hf]

/-- Settles O8: the write to `CMD` delivers the word to the idle block. -/
theorem illegalWordReported : Obligations.IllegalWordReported :=
  ⟨rfl, fun s _ _ _ hd hr hb hs => (step_cmd s hs).trans (deliverWord_illegal_idle _ hd hr hb)⟩

theorem hostStep_wait_idle (rest : List HostAction) (hb : s.flags.busy = false) :
    hostStep .wait rest s = .next (hostRead .status (popAction rest s)) := by
  simp [hostStep, hb]

theorem hostStep_wait_busy (rest : List HostAction) (hb : s.flags.busy = true) :
    hostStep .wait rest s = tick (hostRead .status s) := by
  simp [hostStep, hb]

/-- Settles O16, by `BUSY`. -/
theorem waitPollsStatus : Obligations.WaitPollsStatus := by
  intro s rest hs
  constructor
  · intro hb
    have hread : readReg .status (popAction rest s) = readReg .status s := readReg_outside s .status _ _ _
    rw [step_action s hs, hostStep_wait_idle s rest hb, hostRead_eq, hread]
    rfl
  · intro hb
    rw [step_action s hs, hostStep_wait_busy s rest hb, hostRead_eq]

end Sys2Proof.Machine
end

section
/-! A command in progress, microsecond by microsecond: runs of ticks with `BUSY = 1` and `DONE = 0` until their last instant. -/

namespace Sys2Proof.Machine

/-- A command runs, out of reset and with legal parameters. -/
structure Live (s : State) : Prop where
  released : s.rst = false
  busy : s.flags.busy = true
  notDone : s.flags.done = false
  legal : s.cfg.Legal

/-- `k` microseconds of a command take `s` to `t`; at every instant before `t` the command still runs. -/
inductive BusyRun : Nat → State → State → Prop
  | stop (s : State) : BusyRun 0 s s
  | pass {k : Nat} {s t u : State} (hs : Live s) (ht : tick s = .next t) (h : BusyRun k t u) : BusyRun (k + 1) s u

variable {j k : Nat} {s t u : State}

theorem BusyRun.trans (h : BusyRun j s t) (h' : BusyRun k t u) : BusyRun (j + k) s u := by
  induction h with
  | stop => rwa [Nat.zero_add]
  | pass hs ht _ ih =>
    rw [Nat.succ_add]
    exact .pass hs ht (ih h')

theorem BusyRun.single (hs : Live s) (ht : tick s = .next t) : BusyRun 1 s t := .pass hs ht (.stop t)

theorem BusyRun.runTicks_eq (h : BusyRun k s t) : runTicks k s = .next t := by
  induction h with
  | stop => rfl
  | pass _ ht _ ih => rw [runTicks_succ _ _ ht, ih]

/-- A busy run takes its microseconds (R8). -/
theorem BusyRun.now_eq (h : BusyRun k s t) : t.now = s.now + k := by
  induction h with
  | stop => rfl
  | pass hs ht _ ih =>
    rw [ih, (tick_keeps hs.released ht).now, passTime_eq, Nat.add_assoc, Nat.add_comm 1]

theorem BusyRun.busy_before (h : BusyRun k s t) (hj : j < k) :
    ∃ w, runTicks j s = .next w ∧ w.flags.busy = true ∧ w.flags.done = false := by
  induction h generalizing j with
  | stop => exact absurd hj (Nat.not_lt_zero j)
  | @pass k s t u hs ht _ ih =>
    cases j with
    | zero => exact ⟨s, rfl, hs.busy, hs.notDone⟩
    | succ j =>
      rw [runTicks_succ s j ht]
      exact ih (Nat.lt_of_succ_lt_succ hj)

/-- A command in state `s` is at `t` after at most `bound` microseconds, running until then. -/
def ReachesWithin (bound : Nat) (s t : State) : Prop := ∃ k, k ≤ bound ∧ BusyRun k s t

theorem ReachesWithin.refl (b : Nat) (s : State) : ReachesWithin b s s := ⟨0, Nat.zero_le b, .stop s⟩

theorem ReachesWithin.trans {b b' : Nat} (h : ReachesWithin b s t) (h' : ReachesWithin b' t u) :
    ReachesWithin (b + b') s u := by
  obtain ⟨k, hk, hrun⟩ := h
  obtain ⟨k', hk', hrun'⟩ := h'
  exact ⟨k + k', Nat.add_le_add hk hk', hrun.trans hrun'⟩

theorem ReachesWithin.mono {b b' : Nat} (h : ReachesWithin b s t) (hb : b ≤ b') : ReachesWithin b' s t := by
  obtain ⟨k, hk, hrun⟩ := h
  exact ⟨k, Nat.le_trans hk hb, hrun⟩

end Sys2Proof.Machine
end

section
/-! A wait of the Edge Timer, tick by tick against the loop of R73. -/

namespace Sys2Proof.Machine

/-- A poll loop runs and stands at a sample instant, or at its start. -/
structure Polling (s : State) : Prop where
  live : Live s
  runs : s.et.run = true
  count : s.et.pollCnt = 0#3
  stage : s.seq.stage = .idle ∨ s.seq.stage.Waits

variable {s : State}

/-- `x` microseconds after a sample instant, before the next one (R79). -/
def countedPoll (x : Nat) (s : State) : State := (passTime x s).setEt { s.et with pollCnt := BitVec.ofNat 3 x }

theorem Polling.tick_eq (h : Polling s) (x : Nat) :
    tick (countedPoll x s) = .next (pollTick waitMet waitTimedOut (passTime 1 (countedPoll x s))) := by
  have hne : s.seq.stage ≠ .startPulse ∧ s.seq.stage ≠ .checksum ∧ s.seq.stage ≠ .done := by
    obtain hg | hg := h.stage
    · simp [hg]
    · exact hg.ne.2
  exact tick_wait (countedPoll x s) h.live.released h.live.busy h.runs hne.1 hne.2.1 hne.2.2

/-- `POLLCNT` is the count of microseconds, up to any legal interval (R7). -/
theorem Live.pollCnt_ofNat (h : Live s) {x : Nat} (hx : x < s.cfg.pollUs) : (BitVec.ofNat 3 x).toNat = x := by
  have hp := h.legal.1.2
  exact Nat.mod_eq_of_lt (show x < 2 ^ 3 by omega)

/-- What a sample makes of a running wait, at the state it reads the line in (R73, R74). -/
def sampleOutcome (t : State) : State :=
  if t.line = t.et.level then waitMet (stopTimer t)
  else if sampleFits t = true then t
  else waitTimedOut (stopTimer t)

theorem pollTick_between (h : s.et.pollCnt.toNat + 1 < s.cfg.pollUs) :
    pollTick waitMet waitTimedOut s = countPoll s := by
  rw [pollTick, if_pos h]

theorem pollTick_sample (h : s.et.pollCnt.toNat + 1 = s.cfg.pollUs) :
    pollTick waitMet waitTimedOut s = sampleOutcome (reachSample s) := by
  rw [pollTick, if_neg (Nat.not_lt.mpr (Nat.le_of_eq h.symm))]
  simp only [beq_iff_eq]
  rfl

/-- Between two sample instants only the time and `POLLCNT` move (R79): induction on the microseconds. -/
theorem Polling.counts (h : Polling s) {x : Nat} (hx : x < s.cfg.pollUs) : BusyRun x s (countedPoll x s) := by
  induction x with
  | zero =>
    have h0 : countedPoll 0 s = s := by
      rw [countedPoll, ← h.count]
      rfl
    rw [h0]
    exact .stop s
  | succ x ih =>
    have hlt : x < s.cfg.pollUs := Nat.lt_of_succ_lt hx
    have hcnt : (passTime 1 (countedPoll x s)).et.pollCnt.toNat = x := h.live.pollCnt_ofNat hlt
    have hstep : tick (countedPoll x s) = .next (countedPoll (x + 1) s) := by
      rw [h.tick_eq, pollTick_between (by rw [hcnt]; exact hx)]
      simp [countPoll_eq, passTime_eq, countedPoll, State.setEt, BitVec.ofNat_add, Nat.add_assoc]
    exact (ih hlt).trans (.single { h.live with } hstep)

/-- The state at the next sample instant, `POLL_US` on (R73). -/
def nextSample (s : State) : State := reachSample (passTime s.cfg.pollUs s)

/-- After a whole interval the machine takes the sample that R73 takes there. -/
theorem Polling.samples (h : Polling s) : BusyRun s.cfg.pollUs s (sampleOutcome (nextSample s)) := by
  obtain ⟨p, hp⟩ : ∃ p, s.cfg.pollUs = p + 1 := Nat.exists_eq_add_of_le' h.live.legal.1.1
  have hlt : p < s.cfg.pollUs := by omega
  have hcnt : (passTime 1 (countedPoll p s)).et.pollCnt.toNat = p := h.live.pollCnt_ofNat hlt
  have hsample : reachSample (passTime 1 (countedPoll p s)) = nextSample s := by
    simp [nextSample, reachSample_eq, passTime_eq, countedPoll, State.setEt, hp, Nat.add_assoc]
  have hlast : tick (countedPoll p s) = .next (sampleOutcome (nextSample s)) := by
    rw [h.tick_eq, pollTick_sample (by rw [hcnt]; exact hp.symm), hsample]
  have hrun := (h.counts hlt).trans (.single { h.live with } hlast)
  rwa [← hp] at hrun

theorem awaitLoop_succ_met {l : Bool} {n : Nat} (hl : (nextSample s).line = l) :
    awaitLoop l (n + 1) s = (true, nextSample s) :=
  if_pos (beq_iff_eq.mpr hl)

theorem awaitLoop_succ_missed {l : Bool} {n : Nat} (hl : (nextSample s).line ≠ l) :
    awaitLoop l (n + 1) s = awaitLoop l n (nextSample s) :=
  if_neg (mt beq_iff_eq.mp hl)

/-- A sample inside the budget does not overflow `ET_ELAPSED` (R19). -/
theorem nextSample_elapsed (h : s.et.elapsed.toNat + s.cfg.pollUs ≤ s.et.budget.toNat) :
    (nextSample s).et.elapsed.toNat = s.et.elapsed.toNat + s.cfg.pollUs := by
  have hb := s.et.budget.isLt
  show (s.et.elapsed + BitVec.ofNat 16 s.cfg.pollUs).toNat = _
  rw [BitVec.toNat_add, BitVec.toNat_ofNat, Nat.add_mod_mod, Nat.mod_eq_of_lt (by omega)]

/-- Another sample fits after a first one exactly when the budget holds both (R73). -/
theorem sampleFits_nextSample (h : s.et.elapsed.toNat + s.cfg.pollUs ≤ s.et.budget.toNat) :
    sampleFits (nextSample s) = true ↔ s.et.elapsed.toNat + 2 * s.cfg.pollUs ≤ s.et.budget.toNat := by
  have hel := nextSample_elapsed h
  rw [sampleFits, decide_eq_true_iff, hel, Nat.two_mul, ← Nat.add_assoc]
  rfl

/-- What the stage makes of the end of its wait: whether the level was seen, and the state then (R115). -/
def waitEnded (r : Bool × State) : State := if r.1 then waitMet (stopTimer r.2) else waitTimedOut (stopTimer r.2)

theorem Polling.samples_met (h : Polling s) (hl : (nextSample s).line = s.et.level) :
    BusyRun s.cfg.pollUs s (waitMet (stopTimer (nextSample s))) := by
  have heq : sampleOutcome (nextSample s) = waitMet (stopTimer (nextSample s)) := if_pos hl
  exact heq ▸ h.samples

theorem Polling.samples_missed (h : Polling s) (hl : (nextSample s).line ≠ s.et.level) :
    BusyRun s.cfg.pollUs s
      (if sampleFits (nextSample s) = true then nextSample s else waitTimedOut (stopTimer (nextSample s))) := by
  have heq : sampleOutcome (nextSample s) = _ := if_neg hl
  exact heq ▸ h.samples

/-- The machine's poll loop is the loop of R73, with `n + 1` samples left in the budget: induction on the samples. -/
theorem Polling.loop (h : Polling s) {n : Nat}
    (hfit : s.et.elapsed.toNat + (n + 1) * s.cfg.pollUs ≤ s.et.budget.toNat)
    (hlast : s.et.budget.toNat < s.et.elapsed.toNat + (n + 2) * s.cfg.pollUs) :
    ReachesWithin ((n + 1) * s.cfg.pollUs) s (waitEnded (awaitLoop s.et.level (n + 1) s)) := by
  induction n generalizing s with
  | zero =>
    have hone : s.et.elapsed.toNat + s.cfg.pollUs ≤ s.et.budget.toNat := by simpa using hfit
    refine ⟨_, Nat.le_mul_of_pos_left _ Nat.one_pos, ?_⟩
    by_cases hl : (nextSample s).line = s.et.level
    · rw [awaitLoop_succ_met hl]
      exact h.samples_met hl
    · have hrun := h.samples_missed hl
      rw [if_neg (mt (sampleFits_nextSample hone).mp (Nat.not_le.mpr hlast))] at hrun
      rw [awaitLoop_succ_missed hl]
      exact hrun
  | succ n ih =>
    by_cases hl : (nextSample s).line = s.et.level
    · rw [awaitLoop_succ_met hl]
      exact ⟨_, Nat.le_mul_of_pos_left _ (Nat.succ_pos _), h.samples_met hl⟩
    · simp only [Nat.add_mul, Nat.one_mul] at hfit hlast ⊢
      have hone : s.et.elapsed.toNat + s.cfg.pollUs ≤ s.et.budget.toNat := by omega
      have hel := nextSample_elapsed hone
      have hrun := h.samples_missed hl
      rw [if_pos ((sampleFits_nextSample hone).mpr (by omega))] at hrun
      have hnext : Polling (nextSample s) := { h with live := { h.live with }, count := rfl }
      have hrest := ih hnext
        (show (nextSample s).et.elapsed.toNat + (n + 1) * s.cfg.pollUs ≤ s.et.budget.toNat by
          rw [hel, Nat.add_mul]; omega)
        (show s.et.budget.toNat < (nextSample s).et.elapsed.toNat + (n + 2) * s.cfg.pollUs by
          rw [hel, Nat.add_mul]; omega)
      rw [awaitLoop_succ_missed hl]
      refine ReachesWithin.mono (ReachesWithin.trans ⟨_, Nat.le_refl _, hrun⟩ hrest) ?_
      show s.cfg.pollUs + (n + 1) * s.cfg.pollUs ≤ _
      rw [Nat.add_mul]
      omega

/-- `Await(B, L)` in the machine is `Await(B, L)` of R73, from its start to what the stage makes of its end; a budget that
holds no sample ends it at once (R83). -/
theorem startAwait_reaches {b : Dur} (l : Bool) (h : Live s) (hg : s.seq.stage = .idle ∨ s.seq.stage.Waits) :
    ReachesWithin (wholePolls s b.toNat) (startAwait b l waitTimedOut s)
      (if (awaitClosed b l s).1 then waitMet (awaitClosed b l s).2 else waitTimedOut (awaitClosed b l s).2) := by
  have hp : 0 < s.cfg.pollUs := h.legal.1.1
  show ReachesWithin _ _ (waitEnded (awaitLoop l (b.toNat / s.cfg.pollUs) (armTimer b l s)))
  by_cases hf : s.cfg.pollUs ≤ b.toNat
  · obtain ⟨n, hn⟩ : ∃ n, b.toNat / s.cfg.pollUs = n + 1 :=
      Nat.exists_eq_add_of_le' (Nat.div_pos hf hp)
    have hlo : (n + 1) * s.cfg.pollUs ≤ b.toNat := hn ▸ Nat.div_mul_le_self _ _
    have hhi : b.toNat < (n + 2) * s.cfg.pollUs := by
      have := Nat.lt_div_mul_add (a := b.toNat) hp
      rw [hn] at this
      rwa [Nat.succ_mul]
    have harm : armTimer b l s = startAwait b l waitTimedOut s := by
      rw [startAwait_fits s b l _ hf, armTimer_eq, decide_eq_true hf]
    have hpoll : Polling (armTimer b l s) := ⟨{ h with }, decide_eq_true hf, rfl, hg⟩
    rw [wholePolls, hn, ← harm]
    exact hpoll.loop (by simpa [armTimer_eq] using hlo) (by simpa [armTimer_eq] using hhi)
  · have hn : b.toNat / s.cfg.pollUs = 0 := Nat.div_eq_of_lt (Nat.lt_of_not_le hf)
    rw [hn, startAwait_short s b l _ hf, armTimer_eq, decide_eq_false hf]
    exact .refl _ _

end Sys2Proof.Machine
end

section
/-! The loop of R73 computed: where it ends for a line that is known. -/

namespace Sys2Proof.Machine

variable {s : State}

/-- `k` sample instants on from a sample instant (R19, R73). -/
def afterSamples (k : Nat) (s : State) : State :=
  { s with
    now := s.now + k * s.cfg.pollUs
    env := { s.env with clock := s.env.clock + k * s.cfg.pollUs }
    et := { s.et with elapsed := s.et.elapsed + BitVec.ofNat 16 (k * s.cfg.pollUs), pollCnt := 0#3 } }

theorem afterSamples_zero (h : s.et.pollCnt = 0#3) : afterSamples 0 s = s := by
  simp [afterSamples, ← h]

theorem nextSample_eq : nextSample s = afterSamples 1 s := by
  simp [nextSample, reachSample_eq, passTime_eq, afterSamples]

theorem afterSamples_succ (k : Nat) : afterSamples k (nextSample s) = afterSamples (k + 1) s := by
  simp [nextSample_eq, afterSamples, Nat.add_mul, Nat.add_assoc, Nat.add_comm s.cfg.pollUs, BitVec.ofNat_add, BitVec.add_assoc,
    BitVec.add_comm (BitVec.ofNat 16 s.cfg.pollUs)]

/-- The level the next sample reads. -/
theorem nextSample_line : (nextSample s).line = s.env.lineAt (s.env.clock + s.cfg.pollUs) := rfl

/-- Sample `j + 1` from here is sample `j` from the next one. -/
theorem nextSample_lineAt (j : Nat) :
    (nextSample s).env.lineAt ((nextSample s).env.clock + j * s.cfg.pollUs) =
      s.env.lineAt (s.env.clock + (j + 1) * s.cfg.pollUs) := by
  rw [Nat.succ_mul, Nat.add_comm (j * _), ← Nat.add_assoc]
  rfl

/-- The loop ends with `Ok` at the first sample at the level (R73). -/
theorem awaitLoop_met {l : Bool} {n k : Nat} (hk : k < n)
    (hhit : s.env.lineAt (s.env.clock + (k + 1) * s.cfg.pollUs) = l)
    (hmiss : ∀ j, j < k → s.env.lineAt (s.env.clock + (j + 1) * s.cfg.pollUs) ≠ l) :
    awaitLoop l n s = (true, afterSamples (k + 1) s) := by
  induction k generalizing s n with
  | zero =>
    obtain ⟨n, rfl⟩ := Nat.exists_eq_succ_of_ne_zero (Nat.ne_of_gt hk)
    rw [awaitLoop_succ_met (by simpa [nextSample_line] using hhit), nextSample_eq]
  | succ k ih =>
    obtain ⟨n, rfl⟩ := Nat.exists_eq_succ_of_ne_zero (Nat.ne_of_gt (Nat.zero_lt_of_lt hk))
    have hfirst := hmiss 0 k.succ_pos
    rw [awaitLoop_succ_missed (by simpa [nextSample_line] using hfirst), ← afterSamples_succ]
    refine ih (Nat.lt_of_succ_lt_succ hk) ?_ fun j hj => ?_
    · exact (nextSample_lineAt (k + 1)).trans hhit
    · exact (nextSample_lineAt (j + 1)).symm ▸ hmiss (j + 1) (Nat.succ_lt_succ hj)

/-- The loop ends without `Ok` after its last sample when none is at the level (R73). -/
theorem awaitLoop_missed {l : Bool} {n : Nat} (hcount : s.et.pollCnt = 0#3)
    (hmiss : ∀ j, j < n → s.env.lineAt (s.env.clock + (j + 1) * s.cfg.pollUs) ≠ l) :
    awaitLoop l n s = (false, afterSamples n s) := by
  induction n generalizing s with
  | zero => rw [afterSamples_zero hcount, awaitLoop]
  | succ n ih =>
    have hfirst := hmiss 0 n.succ_pos
    rw [awaitLoop_succ_missed (by simpa [nextSample_line] using hfirst), ← afterSamples_succ]
    exact ih rfl fun j hj => (nextSample_lineAt (j + 1)).symm ▸ hmiss (j + 1) (Nat.succ_lt_succ hj)

/-- The end of `Await(b, l)` started in `s`, `k` sample instants on (R73). -/
def waited (b : Dur) (l : Bool) (k : Nat) (s : State) : State :=
  { s with
    now := s.now + k * s.cfg.pollUs
    env := { s.env with clock := s.env.clock + k * s.cfg.pollUs }
    et := ⟨BitVec.ofNat 16 (k * s.cfg.pollUs), b, l, false, 0#3⟩ }

theorem stopTimer_afterSamples_armTimer (b : Dur) (l : Bool) (k : Nat) :
    stopTimer (afterSamples k (armTimer b l s)) = waited b l k s := by
  simp [stopTimer_eq, afterSamples, armTimer_eq, waited]

/-- `Await` with its first match at sample `k`, within the budget, is `Ok` there (R73). -/
theorem awaitClosed_met {b : Dur} {l : Bool} {k : Nat} (h1 : 1 ≤ k) (hk : k ≤ b.toNat / s.cfg.pollUs)
    (hhit : s.env.lineAt (s.env.clock + k * s.cfg.pollUs) = l)
    (hmiss : ∀ j, 1 ≤ j → j < k → s.env.lineAt (s.env.clock + j * s.cfg.pollUs) ≠ l) :
    awaitClosed b l s = (true, waited b l k s) := by
  obtain ⟨k, rfl⟩ := Nat.exists_eq_add_of_le' h1
  have hloop := awaitLoop_met (s := armTimer b l s) hk hhit fun j hj =>
    hmiss (j + 1) (Nat.succ_pos j) (Nat.succ_lt_succ hj)
  rw [awaitClosed, hloop, stopTimer_afterSamples_armTimer]

/-- `Await` with no match within the budget is `Timeout` at its last sample (R73). -/
theorem awaitClosed_missed {b : Dur} {l : Bool}
    (hmiss : ∀ k, 1 ≤ k → k ≤ b.toNat / s.cfg.pollUs → s.env.lineAt (s.env.clock + k * s.cfg.pollUs) ≠ l) :
    awaitClosed b l s = (false, waited b l (b.toNat / s.cfg.pollUs) s) := by
  have hloop := awaitLoop_missed (s := armTimer b l s) (n := b.toNat / s.cfg.pollUs) rfl fun j hj =>
    hmiss (j + 1) (Nat.succ_pos j) hj
  rw [awaitClosed, hloop, stopTimer_afterSamples_armTimer]

end Sys2Proof.Machine
end

section
/-! AWAIT from acceptance to completion (R70 to R83). -/

namespace Sys2Proof.Machine

variable {s : State}

/-- What an AWAIT accepted in `s` starts its wait in: the results cleared, `BUSY` set (R53, R82). -/
def awaitBegun (s : State) : State :=
  { s with
    res := Results.clear
    et := { s.et with elapsed := 0#16 }
    err := ErrReg.clear
    flags := { s.flags with busy := true, done := false } }

theorem markBusy_accept : markBusy (accept s) = awaitBegun s := by
  rw [accept_eq, markBusy_eq, awaitBegun]

/-- In an idle block AWAIT's timeout is the one its stage names (R82). -/
theorem beginAwait_accept (hg : s.seq.stage = .idle) (level : Bool) (budget : Nat) :
    beginAwait level budget (accept s) = startAwait (BitVec.ofNat 16 budget) level waitTimedOut (awaitBegun s) := by
  have hout : waitTimedOut (armTimer (BitVec.ofNat 16 budget) level (awaitBegun s)) = awaitTimeout _ :=
    waitTimedOut_idle _ hg
  rw [beginAwait, markBusy_accept, startAwait, startAwait, hout]

theorem awaitCommand_accept (level : Bool) (budget : Nat) :
    awaitCommand level budget (accept s) =
      if (awaitClosed (BitVec.ofNat 16 budget) level (awaitBegun s)).1 then
        complete (awaitClosed (BitVec.ofNat 16 budget) level (awaitBegun s)).2
      else awaitTimeout (awaitClosed (BitVec.ofNat 16 budget) level (awaitBegun s)).2 := by
  rw [awaitCommand, markBusy_accept]
  rfl

theorem Resting.awaitBegun_live (h : Resting s) : Live (awaitBegun s) :=
  ⟨h.grounded.released, rfl, rfl, h.grounded.legal⟩

/-- AWAIT in the machine is the command of R82, within the whole intervals of its budget. -/
theorem Resting.await_reaches (h : Resting s) (level : Bool) (budget : Nat) :
    ReachesWithin (wholePolls s budget) (beginAwait level budget (accept s)) (awaitCommand level budget (accept s)) := by
  have hg : s.seq.stage = .idle := congrArg Seq.stage h.seq
  have hend : (awaitClosed (BitVec.ofNat 16 budget) level (awaitBegun s)).2.seq.stage = .idle := by
    rw [awaitClosed_keeps]
    exact hg
  have hrun := startAwait_reaches (b := BitVec.ofNat 16 budget) level h.awaitBegun_live (.inl hg)
  rw [waitMet_idle _ hend, waitTimedOut_idle _ hend] at hrun
  rw [beginAwait_accept hg, awaitCommand_accept]
  exact hrun.mono (Nat.mul_le_mul_right _ (Nat.div_le_div_right (Nat.mod_le _ _)))

/-- The end of an AWAIT accepted in `s`, `k` sample instants on (log 20). -/
def awaitOutcome (s : State) (level : Bool) (budget k : Nat) (e : ErrReg) : State :=
  { s with
    now := s.now + k * s.cfg.pollUs
    env := { s.env with clock := s.env.clock + k * s.cfg.pollUs }
    et := ⟨BitVec.ofNat 16 (k * s.cfg.pollUs), BitVec.ofNat 16 budget, level, false, 0#3⟩
    res := Results.clear
    err := e
    flags := { s.flags with done := true } }

section
variable {level : Bool} {budget k : Nat}

/-- AWAIT with a first match at sample `k` (R73). -/
theorem awaitCommand_met (hb : s.flags.busy = false) (hw : budget < 65536) (h1 : 1 ≤ k) (hk : k ≤ budget / s.cfg.pollUs)
    (hhit : s.env.lineAt (s.env.clock + k * s.cfg.pollUs) = level)
    (hmiss : ∀ j, 1 ≤ j → j < k → s.env.lineAt (s.env.clock + j * s.cfg.pollUs) ≠ level) :
    awaitCommand level budget (accept s) = awaitOutcome s level budget k ErrReg.clear := by
  have hclosed := awaitClosed_met (s := awaitBegun s) (b := BitVec.ofNat 16 budget) h1
    (by rwa [ofNat16_toNat hw]) hhit hmiss
  rw [awaitCommand_accept, hclosed]
  simp [awaitOutcome, waited, complete_eq, awaitBegun, hb]

/-- AWAIT with no match (R73, R83). -/
theorem awaitCommand_missed (hb : s.flags.busy = false) (hw : budget < 65536)
    (hmiss : ∀ k, 1 ≤ k → k ≤ budget / s.cfg.pollUs → s.env.lineAt (s.env.clock + k * s.cfg.pollUs) ≠ level) :
    awaitCommand level budget (accept s) =
      awaitOutcome s level budget (budget / s.cfg.pollUs) ⟨.timeoutError, 0#6⟩ := by
  have hclosed := awaitClosed_missed (s := awaitBegun s) (b := BitVec.ofNat 16 budget) (l := level)
    (by rwa [ofNat16_toNat hw])
  rw [awaitCommand_accept, hclosed, ofNat16_toNat hw]
  simp [awaitOutcome, waited, awaitTimeout, complete_eq, raiseErr_eq, awaitBegun, hb]

/-- An AWAIT whose command ends `k` sample instants on runs in the machine for exactly that long. -/
theorem Resting.runTicks_await (h : Resting s) {e : ErrReg}
    (hend : awaitCommand level budget (accept s) = awaitOutcome s level budget k e) :
    runTicks (k * s.cfg.pollUs) (beginAwait level budget (accept s)) = .next (awaitOutcome s level budget k e) := by
  obtain ⟨m, -, hrun⟩ := h.await_reaches level budget
  rw [hend] at hrun
  have hstart : (beginAwait level budget (accept s)).now = s.now :=
    (exec_keeps h.notBusy (exec_await s h.grounded.released h.notBusy level budget)).now
  have hm : k * s.cfg.pollUs = m := Nat.add_left_cancel (hrun.now_eq.trans (congrArg (· + m) hstart))
  rw [hm]
  exact hrun.runTicks_eq

end

/-- Settles O22: the machine's AWAIT is the loop of R73, and the loop ends at the first match or after its last sample. -/
theorem awaitMeasuresFirstMatch : Obligations.AwaitMeasuresFirstMatch := by
  intro s level budget hi hr hb hw
  have h := hi.resting hr hb
  refine ⟨_, exec_await s hr hb level budget, fun k h1 hk hhit hmiss => ?_, fun hmiss => ?_⟩
  · exact h.runTicks_await (awaitCommand_met hb hw h1 hk hhit hmiss)
  · exact h.runTicks_await (awaitCommand_missed hb hw hmiss)

/-- Settles O24: the first sample at the level is the first at or after the instant it is reached. -/
theorem awaitQuantises : Obligations.AwaitQuantises := by
  intro s level budget e hi hr hb hw he1 he hbefore hheld
  have h := hi.resting hr hb
  have hp : 0 < s.cfg.pollUs := hi.shape.legal.1.1
  generalize hk : (e + s.cfg.pollUs - 1) / s.cfg.pollUs = k at hheld ⊢
  have hceil : ∀ c, k ≤ c ↔ e ≤ c * s.cfg.pollUs := fun c => by
    rw [← hk, Nat.mul_comm]
    exact ceilDiv_le_iff_le_mul hp
  have hreach : e ≤ k * s.cfg.pollUs := (hceil k).mp (Nat.le_refl k)
  have hmiss : ∀ j, j < k → j * s.cfg.pollUs < e := fun j hj =>
    Nat.lt_of_not_le (mt (hceil j).mpr (Nat.not_le_of_lt hj))
  have h1 : 1 ≤ k := Nat.pos_of_mul_pos_right (Nat.lt_of_lt_of_le he1 hreach)
  have hfit : k ≤ budget / s.cfg.pollUs := (hceil _).mpr he
  have hend : awaitCommand level budget (accept s) = awaitOutcome s level budget k ErrReg.clear :=
    awaitCommand_met hb hw h1 hfit (hheld _ (Nat.add_le_add_left hreach _) (Nat.le_refl _)) fun j hj1 hj =>
      hbefore _ (Nat.lt_add_of_pos_right (Nat.mul_pos hj1 hp)) (Nat.add_lt_add_left (hmiss j hj) _)
  refine ⟨_, _, exec_await s hr hb level budget, h.runTicks_await hend, ?_, rfl, hb, rfl⟩
  exact ofNat16_toNat (Nat.lt_of_le_of_lt ((Nat.le_div_iff_mul_le hp).mp hfit) hw)

end Sys2Proof.Machine
end

section
/-! What the timeout of each stage says, and the stage that fails at the instant it would start (R83, R127, R128). -/

namespace Sys2Proof.Machine

variable {s : State}

/-- A wait that times out with the sequencer at `q` ends the acquisition with this error (R98 to R101). -/
def Seq.TimesOutAs (q : Seq) (code : ErrCode) (info : BitVec 6) : Prop :=
  ∀ t : State, t.seq = q → waitTimedOut t = fail code info t

theorem Seq.timesOutAs_ack : Seq.TimesOutAs ⟨.awaitSensorAck, false, 0#6⟩ .handshakeTimeout 2#6 := fun t h =>
  waitTimedOut_ack t (congrArg Seq.stage h)

theorem Seq.timesOutAs_ready : Seq.TimesOutAs ⟨.awaitSensorReady, false, 0#6⟩ .handshakeTimeout 3#6 := fun t h =>
  waitTimedOut_ready t (congrArg Seq.stage h)

theorem Seq.timesOutAs_data : Seq.TimesOutAs ⟨.awaitDataStart, false, 0#6⟩ .handshakeTimeout 4#6 := fun t h =>
  waitTimedOut_data t (congrArg Seq.stage h)

theorem Seq.timesOutAs_bit (sub : Bool) (i : BitVec 6) : Seq.TimesOutAs ⟨.readBit, sub, i⟩ .bitTimeout i := fun t h => by
  rw [waitTimedOut_bit t (congrArg Seq.stage h), h]

theorem startStage_fails {q : Seq} {code : ErrCode} {info : BitVec 6} (hq : q.TimesOutAs code info) {b : Dur}
    (hf : ¬ s.cfg.pollUs ≤ b.toNat) (l : Bool) :
    startStage q b l s = fail code info { s with seq := q, et := ⟨0#16, b, l, false, 0#3⟩ } := by
  rw [startStage_short s q b l hf]
  exact hq _ rfl

/-- The end of an acquisition whose next wait, of budget `b` for `level`, would have started at the next microsecond, the
Frame Decoder then at `d` (logs 20, 4, 14). -/
def failedAtOnce (s : State) (b : Dur) (level : Bool) (code : ErrCode) (info : BitVec 6) (d : Decoder) : State :=
  { s with
    now := s.now + 1
    pad := Pad.H
    seq := ⟨.idle, false, 0#6⟩
    et := ⟨0#16, b, level, false, 0#3⟩
    dec := d
    flags := { s.flags with busy := false, done := true, atomic := false }
    err := ⟨code, info⟩
    env :=
      { s.env with
        clock := s.env.clock + 1
        drives := (s.env.clock + 1, Pad.H) :: s.env.drives
        lastEnd := s.env.clock + 1 } }

/-- A sample that ends one wait, where the next has no sample in its budget (R83, R115). -/
theorem Inv.tick_failedAtOnce (hi : Inv s) (hs : s.SampleNext) (hl : s.nextLine = s.et.level) {q : Seq} {b : Dur}
    {level : Bool} {code : ErrCode} {info : BitVec 6} {d : Decoder} (hf : b.toNat < s.cfg.pollUs)
    (hq : q.TimesOutAs code info) (hmet : waitMet s.sampled = startStage q b level (s.sampled.setDec d)) :
    tick s = .next (failedAtOnce s b level code info d) := by
  have hfail := startStage_fails (s := s.sampled.setDec d) hq (Nat.not_le.mpr hf) level
  rw [hi.tick_met hs hl, hmet, hfail, fail_eq]
  rfl

/-- Outside ReadBit a stage that waits has `SUB` 0 (R14). -/
theorem Inv.sub_false (hi : Inv s) (hp : s.seq.stage ≠ .startPulse) (hr : s.seq.stage ≠ .readBit) : s.seq.sub = false := by
  simpa [hp, hr] using hi.shape.subPlace

/-- Settles O30, by the wait that the sample ends. -/
theorem shortBudgetFailsAtOnce : Obligations.ShortBudgetFailsAtOnce := by
  intro s b level code info buf hi hs hl hf hcase
  rcases hcase with ⟨hg, rfl, rfl, rfl, rfl, rfl⟩ | ⟨hg, rfl, rfl, rfl, rfl, rfl⟩ | ⟨hg, rfl, rfl, rfl, rfl, rfl⟩ |
    ⟨hg, hsub, rfl, rfl, rfl, rfl, rfl⟩ | ⟨hg, hsub, hidx, rfl, rfl, rfl, rfl, hbuf⟩
  · have hsub := hi.sub_false (by simp [hg]) (by simp [hg])
    rw [hi.tick_failedAtOnce hs hl hf Seq.timesOutAs_ready (waitMet_ack s.sampled hg)]
    simp [failedAtOnce, hg, hsub]
  · have hsub := hi.sub_false (by simp [hg]) (by simp [hg])
    rw [hi.tick_failedAtOnce hs hl hf Seq.timesOutAs_data (waitMet_ready s.sampled hg)]
    simp [failedAtOnce, hg, hsub]
  · have hsub := hi.sub_false (by simp [hg]) (by simp [hg])
    rw [hi.tick_failedAtOnce hs hl hf (Seq.timesOutAs_bit false 0#6) (waitMet_data s.sampled hg)]
    simp [failedAtOnce, hg, hsub]
  · rw [hi.tick_failedAtOnce hs hl hf (Seq.timesOutAs_bit true s.seq.bitIdx) (waitMet_low s.sampled hg hsub)]
    simp [failedAtOnce, hg, hsub, State.sampled]
  · have hmet := (waitMet_high s.sampled hg hsub).trans (highPhaseDone_next s.sampled hidx)
    have hdecided : buf = writeBit s.dec.bitBuf s.seq.bitIdx.toNat (decideBit s.dec.lowDur s.nextElapsed) :=
      BitVec.eq_of_getLsbD_eq fun j hj =>
        (hbuf j hj).trans (writeBit_getLsbD s.dec.bitBuf hi.shape.bitIdxRange _).symm
    rw [hi.tick_failedAtOnce hs hl hf (Seq.timesOutAs_bit false (s.seq.bitIdx + 1#6)) hmet, hdecided]
    simp [failedAtOnce, hg, hsub, State.sampled]

end Sys2Proof.Machine
end

section
/-! The start pulse (R97), microsecond by microsecond. -/

namespace Sys2Proof.Machine

variable {s : State}

/-- A half of the pulse that lasts `n` microseconds, `x` microseconds on. -/
def pulseView (n x : Nat) (s : State) : State := (passTime x s).setDly (BitVec.ofNat 16 (n - x))

/-- What the end of a half of the pulse does: `SUB` tells which half it was (R97). -/
def endHalf (s : State) : State := if s.seq.sub then endStartHigh s else endStartLow s

/-- `DLY` counts down by one (R21). -/
theorem ofNat16_sub_one {n x : Nat} (h : x < n) :
    BitVec.ofNat 16 (n - x) - 1#16 = BitVec.ofNat 16 (n - (x + 1)) := by
  have hs : n - x = n - (x + 1) + 1 := by omega
  rw [hs, BitVec.ofNat_add, BitVec.add_sub_cancel]

/-- A positive delay that fits `DLY` is not 0 in it (R21). -/
theorem ofNat16_ne_zero {n : Nat} (hpos : 0 < n) (hn : n < 65536) : BitVec.ofNat 16 n ≠ 0#16 := fun hz =>
  Nat.ne_of_gt hpos ((ofNat16_toNat hn).symm.trans (congrArg BitVec.toNat hz))

section
variable (h : Live s) (hg : s.seq.stage = .startPulse) {n x : Nat} (hn : n < 65536)
include h hg hn

theorem Live.tick_pulseView (hx : x < n) :
    tick (pulseView n x s) = .next (startPulseTick (passTime 1 (pulseView n x s))) :=
  tick_pulse (pulseView n x s) h.released h.busy hg (ofNat16_ne_zero (Nat.sub_pos_of_lt hx) (by omega))

/-- Within a half only the time and `DLY` move. -/
theorem Live.pulseView_succ (hx : x + 1 < n) : tick (pulseView n x s) = .next (pulseView n (x + 1) s) := by
  have hd : (passTime 1 (pulseView n x s)).dly - 1#16 = BitVec.ofNat 16 (n - (x + 1)) :=
    ofNat16_sub_one (Nat.lt_of_succ_lt hx)
  have hnz : BitVec.ofNat 16 (n - (x + 1)) ≠ 0#16 := ofNat16_ne_zero (Nat.sub_pos_of_lt hx) (by omega)
  have hstep : startPulseTick (passTime 1 (pulseView n x s)) = pulseView n (x + 1) s := by
    rw [startPulseTick, hd, State.setDly_dly, if_neg hnz]
    simp [pulseView, passTime_eq, State.setDly, Nat.add_assoc]
  rw [h.tick_pulseView hg hn (Nat.lt_of_succ_lt hx), hstep]

/-- A half of the pulse up to any instant before its end: induction on the microseconds. -/
theorem Live.runs_pulseView (hx : x < n) : BusyRun x (pulseView n 0 s) (pulseView n x s) := by
  induction x with
  | zero => exact .stop _
  | succ x ih =>
    have hstep := h.pulseView_succ hg hn hx
    exact (ih (Nat.lt_of_succ_lt hx)).trans (.single { h with } hstep)

/-- A half of the pulse takes its microseconds, and then it ends. -/
theorem Live.runs_half (hz : s.dly = 0#16) (hpos : 0 < n) :
    BusyRun n (s.setDly (BitVec.ofNat 16 n)) (endHalf (passTime n s)) := by
  obtain ⟨m, rfl⟩ := Nat.exists_eq_add_of_le' hpos
  have hd : (passTime 1 (pulseView (m + 1) m s)).dly - 1#16 = 0#16 := by
    rw [show (passTime 1 (pulseView (m + 1) m s)).dly - 1#16 = _ from ofNat16_sub_one (Nat.lt_succ_self m)]
    simp
  have heq : (passTime 1 (pulseView (m + 1) m s)).setDly 0#16 = passTime (m + 1) s := by
    simp [pulseView, passTime_eq, State.setDly, hz, Nat.add_assoc]
  have hend : tick (pulseView (m + 1) m s) = .next (endHalf (passTime (m + 1) s)) := by
    rw [h.tick_pulseView hg hn (Nat.lt_succ_self m), startPulseTick, hd, heq]
    exact congrArg _ (if_pos hz)
  exact (h.runs_pulseView hg hn (Nat.lt_succ_self m)).trans (.single { h with } hend)

end

/-- The low half begins (R97). -/
def lowHalf (s : State) : State :=
  { s with
    seq := ⟨.startPulse, false, 0#6⟩
    pad := Pad.L
    env := { s.env with drives := (s.env.clock, Pad.L) :: s.env.drives } }

/-- The high half begins (R97). -/
def highHalf (s : State) : State :=
  { s with
    seq := ⟨.startPulse, true, 0#6⟩
    pad := Pad.H
    env := { s.env with drives := (s.env.clock, Pad.H) :: s.env.drives } }

/-- The end of the low half is the start of the high half (R97). -/
def lowEnd (s : State) : State := passTime s.cfg.startLowUs (lowHalf s)

/-- What an acquisition that has begun does at its acceptance: the low half of the pulse begins, with its delay (R97). -/
def beginPulse (s : State) : State := (lowHalf s).setDly (BitVec.ofNat 16 s.cfg.startLowUs)

section
variable (h : Live s) (hz : s.dly = 0#16)
include h

theorem Live.of_lowHalf : Live (lowHalf s) := { h with }

theorem Live.of_highHalf : Live (highHalf s) := { h with }

theorem Live.of_lowEnd : Live (lowEnd s) := { h with }

theorem Live.startLow_lt : s.cfg.startLowUs < 65536 := Nat.lt_succ_of_le h.legal.2.1.2

theorem Live.startHigh_lt : s.cfg.startHighUs < 65536 := Nat.lt_succ_of_le h.legal.2.2.1

/-- Where there is a high half, the end of the low half begins it. -/
theorem Live.endStartLow_eq (hh : 0 < s.cfg.startHighUs) :
    endStartLow s = (highHalf s).setDly (BitVec.ofNat 16 s.cfg.startHighUs) := by
  rw [endStartLow_high s (ofNat16_ne_zero hh h.startHigh_lt)]
  rfl

/-- Within the low half. -/
theorem Live.runs_low {x : Nat} (hx : x < s.cfg.startLowUs) :
    BusyRun x (beginPulse s) (pulseView s.cfg.startLowUs x (lowHalf s)) :=
  h.of_lowHalf.runs_pulseView rfl h.startLow_lt hx

/-- Within the high half, which then exists. -/
theorem Live.runs_high {x : Nat} (hx : x < s.cfg.startHighUs) :
    BusyRun x (endStartLow s) (pulseView s.cfg.startHighUs x (highHalf s)) := by
  rw [h.endStartLow_eq (Nat.zero_lt_of_lt hx)]
  exact h.of_highHalf.runs_pulseView rfl h.startHigh_lt hx

include hz

/-- The low half up to its end. -/
theorem Live.runs_lowEnd : BusyRun s.cfg.startLowUs (beginPulse s) (endStartLow (lowEnd s)) :=
  h.of_lowHalf.runs_half rfl h.startLow_lt hz (Nat.lt_of_lt_of_le (by decide) h.legal.2.1.1)

/-- The high half up to its end: none where `START_HIGH_US` is 0. -/
theorem Live.runs_highEnd :
    BusyRun s.cfg.startHighUs (endStartLow s) (endStartHigh (passTime s.cfg.startHighUs (highHalf s))) := by
  obtain hh | hh := Nat.eq_zero_or_pos s.cfg.startHighUs
  · have hzero : BitVec.ofNat 16 s.cfg.startHighUs = 0#16 := by rw [hh]
    have heq : endStartLow s = endStartHigh (passTime 0 (highHalf s)) := by
      rw [endStartLow_none s hzero, ← hz]
      rfl
    rw [heq, hh]
    exact .stop _
  · rw [h.endStartLow_eq hh]
    exact h.of_highHalf.runs_half rfl h.startHigh_lt hz hh

/-- The whole pulse: the line released and stage 2 started, in the state that R97 computes. -/
theorem Live.runs_pulse :
    BusyRun (s.cfg.startLowUs + s.cfg.startHighUs) (beginPulse s) (startAck (startPulse s)) :=
  (h.runs_lowEnd hz).trans (h.of_lowEnd.runs_highEnd hz)

end

/-- What an acquisition accepted in `s` begins its pulse in: the results cleared, the request latched, the bit buffer clear, the
window open (R53, R94, R107). -/
def acqBegun (wantH wantT : Bool) (s : State) : State :=
  { s with
    dec := { s.dec with wantH := wantH, wantT := wantT, bitBuf := 0#40 }
    res := Results.clear
    et := { s.et with elapsed := 0#16 }
    err := ErrReg.clear
    flags := { s.flags with busy := true, done := false, atomic := true } }

theorem beginAcq_accept_wanted {wantH wantT : Bool} (hw : (wantH || wantT) = true) :
    beginAcq wantH wantT (accept s) = beginPulse (acqBegun wantH wantT s) := by
  rw [beginAcq_wanted (accept s) wantH wantT hw, accept_eq]
  rfl

theorem Resting.acqBegun_live (h : Resting s) (wantH wantT : Bool) : Live (acqBegun wantH wantT s) :=
  ⟨h.grounded.released, rfl, rfl, h.grounded.legal⟩

/-- Stage 2 starts its wait (R98). -/
theorem startAck_fits (hf : s.cfg.pollUs ≤ s.regs.tAck.toNat) :
    startAck s = { s with seq := ⟨.awaitSensorAck, false, 0#6⟩, et := ⟨0#16, s.regs.tAck, false, true, 0#3⟩ } :=
  startStage_fits s _ _ _ hf

/-- Stage 2 fails at the instant it would start (R83, R127). -/
theorem startAck_fails (hf : ¬ s.cfg.pollUs ≤ s.regs.tAck.toNat) :
    startAck s =
      fail .handshakeTimeout 2#6
        { s with seq := ⟨.awaitSensorAck, false, 0#6⟩, et := ⟨0#16, s.regs.tAck, false, false, 0#3⟩ } :=
  startStage_fails Seq.timesOutAs_ack hf false

/-- Settles O27: the two halves of the pulse microsecond by microsecond, and the stage 2 that starts at its end. -/
theorem startPulseShape : Obligations.StartPulseShape := by
  intro s wantH wantT hi hr hb hw
  have h := hi.resting hr hb
  have hlive := h.acqBegun_live wantH wantT
  have hz : (acqBegun wantH wantT s).dly = 0#16 := h.delay
  have hpulse := hlive.runs_pulse hz
  refine ⟨beginPulse (acqBegun wantH wantT s), ?_, fun x hx => ?_, hi.shape.legal.2.1.1, fun x hlo hhi => ?_,
    startAck (startPulse (acqBegun wantH wantT s)), hpulse.runTicks_eq, ?_, ?_, ?_⟩
  · rw [exec_acq s hr hb, beginAcq_accept_wanted hw]
  · have hrun := hlive.runs_low hx
    exact ⟨_, hrun.runTicks_eq, hrun.now_eq, rfl, rfl⟩
  · obtain ⟨y, rfl⟩ := Nat.exists_eq_add_of_le hlo
    have hy : y < s.cfg.startHighUs := Nat.lt_of_add_lt_add_left hhi
    have hrun := (hlive.runs_lowEnd hz).trans (hlive.of_lowEnd.runs_high hy)
    exact ⟨_, hrun.runTicks_eq, hrun.now_eq, rfl, rfl⟩
  · rw [hpulse.now_eq, Nat.add_assoc]
    rfl
  · intro hf
    have hack : startAck (startPulse (acqBegun wantH wantT s)) = _ := startAck_fits hf
    rw [hack, startPulse_eq]
    exact ⟨rfl, rfl, rfl, rfl, rfl⟩
  · intro hf
    have hack : startAck (startPulse (acqBegun wantH wantT s)) = _ := startAck_fails hf
    rw [hack, fail_eq]
    exact ⟨rfl, rfl, rfl, rfl, rfl⟩

end Sys2Proof.Machine
end

section
/-! ACQ in the machine against the sequence of R94: stage by stage, from the last bit back to the start pulse. -/

namespace Sys2Proof.Machine

variable {s₀ s : State}

/-- A command accepted under the parameters and budgets of `s₀` is still in progress. -/
structure InProgress (s₀ s : State) : Prop where
  live : Live s
  cfg : s.cfg = s₀.cfg
  regs : s.regs = s₀.regs

/-- The Frame Decoder's writes do not end it. -/
theorem InProgress.of_setDec (h : InProgress s₀ s) (d : Decoder) : InProgress s₀ (s.setDec d) :=
  ⟨{ h.live with }, h.cfg, h.regs⟩

theorem InProgress.of_setSeq (h : InProgress s₀ s) (q : Seq) : InProgress s₀ (s.setSeq q) :=
  ⟨{ h.live with }, h.cfg, h.regs⟩

/-- Neither does a wait. -/
theorem InProgress.of_awaitClosed (h : InProgress s₀ s) (b : Dur) (l : Bool) : InProgress s₀ (awaitClosed b l s).2 := by
  rw [awaitClosed_keeps]
  exact ⟨{ h.live with }, h.cfg, h.regs⟩

theorem awaitClosed_seq (b : Dur) (l : Bool) : (awaitClosed b l s).2.seq = s.seq := by
  rw [awaitClosed_keeps]

theorem awaitClosed_flags (b : Dur) (l : Bool) : (awaitClosed b l s).2.flags = s.flags := by
  rw [awaitClosed_keeps]

/-- A stage in the machine is the stage of R94, when what follows it is. -/
theorem InProgress.startStage_reaches (h : InProgress s₀ s) {q : Seq} {b : Dur} {l : Bool} {code : ErrCode} {info : BitVec 6}
    {andThen : State → State} {bound : Nat} (hq : q.stage.Waits) (hfail : q.TimesOutAs code info)
    (hmet : ∀ t, InProgress s₀ t → t.seq = q → ReachesWithin bound (waitMet t) (andThen t)) :
    ReachesWithin (wholePolls s₀ b.toNat + bound) (startStage q b l s) (stageThen q b l code info andThen s) := by
  have hin := h.of_setSeq q
  have hseq : (awaitClosed b l (s.setSeq q)).2.seq = q := awaitClosed_seq b l
  have hwait := startAwait_reaches (b := b) l hin.live (.inr hq)
  rw [wholePolls, hin.cfg, hfail _ hseq] at hwait
  refine hwait.trans ?_
  unfold stageThen
  dsimp only
  split
  · exact hmet _ (hin.of_awaitClosed b l) hseq
  · exact .refl _ _

/-- Where ReadBit goes on with `n` bits to come: the low phase of the next one, or the end of the frame (R101, R105). -/
def nextBit (n : Nat) (s : State) : State :=
  match n with
  | 0 => endBits s
  | n + 1 => startLowPhase (BitVec.ofNat 6 (nBits - (n + 1))) s

theorem endBits_eq_afterBits : endBits s = afterBits s := rfl

/-- The high phase of a bit is measured, with `n` bits to come: the bit is recorded, and ReadBit goes on (R101, R103). -/
theorem waitMet_highPhase {n : Nat} (hn : n < 40) (hq : s.seq = ⟨.readBit, true, BitVec.ofNat 6 (nBits - (n + 1))⟩) :
    waitMet s = nextBit n (recordBit (nBits - (n + 1)) s) := by
  have hidx : s.seq.bitIdx.toNat = nBits - (n + 1) := by
    rw [hq]
    exact Nat.mod_eq_of_lt (show 40 - (n + 1) < 64 by omega)
  rw [waitMet_high s (congrArg Seq.stage hq) (congrArg Seq.sub hq)]
  cases n with
  | zero =>
    rw [highPhaseDone_last s (by rw [hidx]; decide), hidx]
    rfl
  | succ n =>
    have hnext : s.seq.bitIdx + 1#6 = BitVec.ofNat 6 (nBits - (n + 1)) := by
      have hstep : nBits - (n + 1) = nBits - (n + 1 + 1) + 1 := show 40 - (n + 1) = 40 - (n + 1 + 1) + 1 by omega
      rw [hq, hstep, BitVec.ofNat_add]
    rw [highPhaseDone_next s (by rw [hidx]; show 40 - (n + 1 + 1) < 39; omega), hidx, hnext]
    rfl

/-- The low phase of a bit is measured: its high phase starts (R101). -/
theorem waitMet_lowPhase {i : BitVec 6} (hq : s.seq = ⟨.readBit, false, i⟩) :
    waitMet s = startHighPhase i (s.setDec { s.dec with lowDur := s.et.elapsed }) := by
  rw [waitMet_low s (congrArg Seq.stage hq) (congrArg Seq.sub hq), lowPhaseDone, hq]

/-- The greatest duration of a bit (R160). -/
def bitBound (s₀ : State) : Nat := wholePolls s₀ s₀.regs.tBitLow.toNat + wholePolls s₀ s₀.regs.tBitHigh.toNat

/-- ReadBit from its last `n` bits on, and the end of the frame: induction on the bits. -/
theorem InProgress.readBits_reaches {n : Nat} (hn : n ≤ 40) (h : InProgress s₀ s) :
    ReachesWithin (n * bitBound s₀) (nextBit n s) (readBits n s) := by
  induction n generalizing s with
  | zero => exact .refl _ _
  | succ n ih =>
    have hbound : (n + 1) * bitBound s₀ =
        wholePolls s₀ s₀.regs.tBitLow.toNat + (wholePolls s₀ s₀.regs.tBitHigh.toNat + n * bitBound s₀) := by
      rw [Nat.succ_mul, bitBound]
      omega
    rw [hbound, nextBit, startLowPhase, readBits, h.regs]
    refine h.startStage_reaches (.inr (.inr (.inr rfl))) (Seq.timesOutAs_bit _ _) fun t ht hq => ?_
    rw [waitMet_lowPhase hq, startHighPhase, highPhase, State.setDec_regs, ht.regs]
    refine (ht.of_setDec _).startStage_reaches (.inr (.inr (.inr rfl))) (Seq.timesOutAs_bit _ _) fun u hu hq' => ?_
    rw [waitMet_highPhase hn hq']
    exact ih (Nat.le_of_succ_le hn) (hu.of_setDec _)

/-- ACQ from AwaitDataStart on. -/
theorem InProgress.fromDataStart_reaches (h : InProgress s₀ s) :
    ReachesWithin (wholePolls s₀ s₀.regs.tDstart.toNat + 40 * bitBound s₀) (startData s) (fromDataStart s) := by
  rw [startData, fromDataStart, h.regs]
  refine h.startStage_reaches (.inr (.inr (.inl rfl))) Seq.timesOutAs_data fun t ht hq => ?_
  rw [waitMet_data t (congrArg Seq.stage hq)]
  exact ht.readBits_reaches (Nat.le_refl 40)

/-- ACQ from AwaitSensorReady on. -/
theorem InProgress.fromSensorReady_reaches (h : InProgress s₀ s) :
    ReachesWithin (wholePolls s₀ s₀.regs.tReady.toNat + (wholePolls s₀ s₀.regs.tDstart.toNat + 40 * bitBound s₀))
      (startReady s) (fromSensorReady s) := by
  rw [startReady, fromSensorReady, h.regs]
  refine h.startStage_reaches (.inr (.inl rfl)) Seq.timesOutAs_ready fun t ht hq => ?_
  rw [waitMet_ready t (congrArg Seq.stage hq)]
  exact ht.fromDataStart_reaches

/-- ACQ from AwaitSensorAck on. -/
theorem InProgress.fromSensorAck_reaches (h : InProgress s₀ s) :
    ReachesWithin
      (wholePolls s₀ s₀.regs.tAck.toNat +
        (wholePolls s₀ s₀.regs.tReady.toNat + (wholePolls s₀ s₀.regs.tDstart.toNat + 40 * bitBound s₀)))
      (startAck s) (fromSensorAck s) := by
  rw [startAck, fromSensorAck, h.regs]
  refine h.startStage_reaches (.inl rfl) Seq.timesOutAs_ack fun t ht hq => ?_
  rw [waitMet_ack t (congrArg Seq.stage hq)]
  exact ht.fromSensorReady_reaches

end Sys2Proof.Machine
end

section
/-! Every command in the machine against its closed computation, and the end of every command (R73, R94, R160, R163). -/

namespace Sys2Proof.Machine

variable {s : State}

theorem acqCommand_accept_wanted {wantH wantT : Bool} (hw : (wantH || wantT) = true) :
    acqCommand wantH wantT (accept s) = fromSensorAck (startPulse (acqBegun wantH wantT s)) := by
  rw [acqCommand_wanted (accept s) wantH wantT hw, accept_eq]
  rfl

/-- ACQ with nothing requested is over at its acceptance (R95). -/
theorem acqCommand_none : acqCommand false false s = beginAcq false false s := rfl

/-- ACQ in the machine is the sequence of R94, within the bound of R160. -/
theorem Resting.acq_reaches (h : Resting s) (wantH wantT : Bool) :
    ReachesWithin (longestRun (.acq wantH wantT) s) (beginAcq wantH wantT (accept s))
      (acqCommand wantH wantT (accept s)) := by
  by_cases hw : (wantH || wantT) = true
  · have hlive := h.acqBegun_live wantH wantT
    have hpulse := hlive.runs_pulse h.delay
    have hin : InProgress s (startPulse (acqBegun wantH wantT s)) := by
      rw [startPulse_eq]
      exact ⟨{ hlive with }, rfl, rfl⟩
    rw [beginAcq_accept_wanted hw, acqCommand_accept_wanted hw]
    refine (ReachesWithin.trans ⟨_, Nat.le_refl _, hpulse⟩ hin.fromSensorAck_reaches).mono ?_
    show s.cfg.startLowUs + s.cfg.startHighUs + _ ≤ _
    simp only [longestRun, hw, if_true, bitBound]
    omega
  · obtain ⟨rfl, rfl⟩ : wantH = false ∧ wantT = false := by simpa using hw
    rw [acqCommand_none]
    exact .refl _ _

/-- Every command accepted by a block that rests ends in what its closed computation says, within the bound of R160. -/
theorem Resting.exec_reaches (h : Resting s) (i : Instr) :
    ∃ u, exec i s = .next u ∧ ReachesWithin (longestRun i s) u (commandClosed i s) := by
  have hr := h.grounded.released
  cases i with
  | drvl => exact ⟨_, exec_drvl s hr h.notBusy, .refl _ _⟩
  | drvh => exact ⟨_, exec_drvh s hr h.notBusy, .refl _ _⟩
  | rel => exact ⟨_, exec_rel s hr h.notBusy, .refl _ _⟩
  | await level budget => exact ⟨_, exec_await s hr h.notBusy level budget, h.await_reaches level budget⟩
  | acq wantH wantT => exact ⟨_, exec_acq s hr h.notBusy wantH wantT, h.acq_reaches wantH wantT⟩

/-- The block after a command: idle, done, the window closed (R27, R163). -/
structure Ended (s : State) : Prop where
  notBusy : s.flags.busy = false
  done : s.flags.done = true
  closed : s.flags.atomic = false
  seq : s.seq = ⟨.idle, false, 0#6⟩

theorem fail_ended (code : ErrCode) (info : BitVec 6) : Ended (fail code info s) := ⟨rfl, rfl, rfl, rfl⟩

theorem stageThen_ended {q : Seq} {b : Dur} {l : Bool} {code : ErrCode} {info : BitVec 6} {andThen : State → State}
    (h : ∀ t, Ended (andThen t)) (s : State) : Ended (stageThen q b l code info andThen s) := by
  unfold stageThen
  dsimp only
  split
  · exact h _
  · exact fail_ended code info

theorem afterBits_ended (s : State) : Ended (afterBits s) := by
  rw [← endBits_eq_afterBits]
  by_cases hv : (pack s.dec.bitBuf).valid = true
  · rw [endBits_valid s hv]
    exact ⟨rfl, rfl, rfl, rfl⟩
  · rw [endBits_invalid s hv]
    exact ⟨rfl, rfl, rfl, rfl⟩

theorem readBits_ended (n : Nat) (s : State) : Ended (readBits n s) := by
  induction n generalizing s with
  | zero => exact afterBits_ended s
  | succ n ih => exact stageThen_ended (fun t => stageThen_ended (fun u => ih _) _) s

theorem fromSensorAck_ended (s : State) : Ended (fromSensorAck s) :=
  stageThen_ended (stageThen_ended (stageThen_ended (readBits_ended nBits))) s

/-- AWAIT keeps the window and the sequencer as they were (R82). -/
theorem Resting.awaitCommand_ended (h : Resting s) (level : Bool) (budget : Nat) :
    Ended (awaitCommand level budget (accept s)) := by
  have hclosed : (awaitClosed (BitVec.ofNat 16 budget) level (awaitBegun s)).2.flags.atomic = false := by
    rw [awaitClosed_flags]
    exact h.closed
  have hseq : (awaitClosed (BitVec.ofNat 16 budget) level (awaitBegun s)).2.seq = ⟨.idle, false, 0#6⟩ := by
    rw [awaitClosed_seq]
    exact h.seq
  rw [awaitCommand_accept]
  split
  · exact ⟨rfl, rfl, hclosed, hseq⟩
  · exact ⟨rfl, rfl, hclosed, hseq⟩

theorem Resting.drive_ended (h : Resting s) (p : Pad) : Ended (complete (drivePad p (accept s))) := by
  rw [complete_drivePad_accept]
  exact ⟨rfl, rfl, h.closed, h.seq⟩

/-- Every command accepted by a block that rests leaves it idle with the window closed (R163). -/
theorem Resting.commandClosed_ended (h : Resting s) (i : Instr) : Ended (commandClosed i s) := by
  cases i with
  | drvl => exact h.drive_ended Pad.L
  | drvh => exact h.drive_ended Pad.H
  | rel => exact h.drive_ended Pad.Z
  | await level budget => exact h.awaitCommand_ended level budget
  | acq wantH wantT =>
    by_cases hw : (wantH || wantT) = true
    · have heq : commandClosed (.acq wantH wantT) s = _ := acqCommand_accept_wanted hw
      rw [heq]
      exact fromSensorAck_ended _
    · obtain ⟨rfl, rfl⟩ : wantH = false ∧ wantT = false := by simpa using hw
      have heq : commandClosed (.acq false false) s = _ := beginAcq_none (accept s)
      rw [heq, accept_eq]
      exact ⟨rfl, rfl, h.closed, h.seq⟩

/-- Settles O36: ACQ among the commands, each of which ends in its closed computation. -/
theorem acqRunsAsWritten : Obligations.AcqRunsAsWritten := by
  intro s wantH wantT hi hr hb
  obtain ⟨u, hexec, k, -, hrun⟩ := (hi.resting hr hb).exec_reaches (.acq wantH wantT)
  exact ⟨u, k, hexec, hrun.runTicks_eq, hrun.now_eq.trans (congrArg (· + k) (exec_keeps hb hexec).now)⟩

/-- Settles O40: every command reaches its closed computation within the bound, running until then, and that leaves the
block idle. -/
theorem everyCommandEnds : Obligations.EveryCommandEnds := by
  intro i s _ hi hr hb
  have h := hi.resting hr hb
  obtain ⟨u, hexec, k, hk, hrun⟩ := h.exec_reaches i
  obtain ⟨hidle, hdone, hclosed, hseq⟩ := h.commandClosed_ended i
  exact ⟨u, commandClosed i s, k, hexec, hk, hrun.runTicks_eq,
    hrun.now_eq.trans (congrArg (· + k) (exec_keeps hb hexec).now), hidle, hdone, hclosed, hseq,
    fun _ hj => hrun.busy_before hj⟩

end Sys2Proof.Machine
end

section
/-! The direction of the pad for hosts that issue no DRVL, DRVH or REL (R90): an acquisition that is over has left the line high,
a microsecond of an idle block leaves it, and of the host's actions only the acceptance of ACQ and a reset touch it. -/

namespace Sys2Proof.Machine

variable {s t : State} {acquired : Bool}

/-! The end of an acquisition. -/

/-- Where the sequencer stands in Idle the line is driven high: what an acquisition leaves when it is over (R111). -/
def IdleHigh (s : State) : Prop := s.seq.stage = .idle → s.pad = Pad.H

theorem IdleHigh.of_running (hg : s.seq.stage ≠ .idle) : IdleHigh s := fun hidle => absurd hidle hg

theorem fail_idleHigh (code : ErrCode) (info : BitVec 6) : IdleHigh (fail code info s) := fun _ => rfl

theorem waitTimedOut_idleHigh (hg : s.seq.stage ≠ .idle) : IdleHigh (waitTimedOut s) := by
  cases hs : s.seq.stage with
  | idle => exact absurd hs hg
  | startPulse | checksum | done => simpa only [waitTimedOut, hs] using IdleHigh.of_running hg
  | awaitSensorAck => rw [waitTimedOut_ack s hs]; exact fail_idleHigh _ _
  | awaitSensorReady => rw [waitTimedOut_ready s hs]; exact fail_idleHigh _ _
  | awaitDataStart => rw [waitTimedOut_data s hs]; exact fail_idleHigh _ _
  | readBit => rw [waitTimedOut_bit s hs]; exact fail_idleHigh _ _

theorem startStage_idleHigh {q : Seq} (hq : q.stage ≠ .idle) (b : Dur) (l : Bool) : IdleHigh (startStage q b l s) := by
  by_cases h : s.cfg.pollUs ≤ b.toNat
  · rw [startStage_fits s q b l h]
    exact .of_running hq
  · rw [startStage_short s q b l h]
    exact waitTimedOut_idleHigh hq

theorem checkFrame_idleHigh : IdleHigh (checkFrame s) := by
  by_cases h : (pack s.dec.bitBuf).valid = true
  · rw [checkFrame_valid s h]
    exact fun _ => rfl
  · rw [checkFrame_invalid s h]
    exact fail_idleHigh _ _

theorem highPhaseDone_idleHigh : IdleHigh (highPhaseDone s) := by
  by_cases h : s.seq.bitIdx.toNat < 39
  · rw [highPhaseDone_next s h]
    exact startStage_idleHigh (by simp) _ _
  · rw [highPhaseDone_last s h]
    exact checkFrame_idleHigh

theorem waitMet_idleHigh (hg : s.seq.stage ≠ .idle) : IdleHigh (waitMet s) := by
  cases hs : s.seq.stage with
  | idle => exact absurd hs hg
  | startPulse | checksum | done => simpa only [waitMet, hs] using IdleHigh.of_running hg
  | awaitSensorAck => rw [waitMet_ack s hs]; exact startStage_idleHigh (by simp) _ _
  | awaitSensorReady => rw [waitMet_ready s hs]; exact startStage_idleHigh (by simp) _ _
  | awaitDataStart => rw [waitMet_data s hs]; exact startStage_idleHigh (by simp) _ _
  | readBit =>
    cases hsub : s.seq.sub with
    | false => rw [waitMet_low s hs hsub]; exact startStage_idleHigh (by simp) _ _
    | true => rw [waitMet_high s hs hsub]; exact highPhaseDone_idleHigh

theorem pollTick_idleHigh (hg : s.seq.stage ≠ .idle) : IdleHigh (pollTick waitMet waitTimedOut s) := by
  rcases pollTick_cases s waitMet waitTimedOut with ⟨-, e⟩ | ⟨-, -, e⟩ | ⟨-, -, -, e⟩ | ⟨-, -, -, e⟩ <;> rw [e]
  · exact .of_running hg
  · exact waitMet_idleHigh hg
  · exact .of_running hg
  · exact waitTimedOut_idleHigh hg

theorem endStartHigh_idleHigh : IdleHigh (endStartHigh s) := startStage_idleHigh (by simp) _ _

theorem startPulseTick_idleHigh (hg : s.seq.stage ≠ .idle) : IdleHigh (startPulseTick s) := by
  rcases startPulseTick_cases s with ⟨-, e⟩ | ⟨-, -, e⟩ | ⟨-, -, e⟩ <;> rw [e]
  · exact .of_running hg
  · exact endStartHigh_idleHigh
  · by_cases h : BitVec.ofNat 16 s.cfg.startHighUs = 0#16
    · rw [endStartLow_none { s with dly := 0#16 } h]
      exact endStartHigh_idleHigh
    · rw [endStartLow_high { s with dly := 0#16 } h]
      exact .of_running (by simp)

/-! A microsecond. -/

/-- A microsecond that ends an acquisition leaves the line high. -/
theorem TickEffect.idleHigh (h : TickEffect s t) (hg : s.seq.stage ≠ .idle) : IdleHigh t := by
  cases h with
  | held | idles => exact .of_running hg
  | polls => exact pollTick_idleHigh (s := passTime 1 s) hg
  | pulses => exact startPulseTick_idleHigh (s := passTime 1 s) hg
  | checks => exact checkFrame_idleHigh
  | commits => exact fun _ => rfl

/-- The host's AWAIT never moves the sequencer (R82). -/
theorem pollTick_idle_seq (hg : s.seq.stage = .idle) : (pollTick waitMet waitTimedOut s).seq = s.seq := by
  have hg' : (stopTimer (reachSample s)).seq.stage = .idle := hg
  rcases pollTick_cases s waitMet waitTimedOut with ⟨-, e⟩ | ⟨-, -, e⟩ | ⟨-, -, -, e⟩ | ⟨-, -, -, e⟩ <;> rw [e]
  · rfl
  · rw [waitMet_idle _ hg']
    rfl
  · rfl
  · rw [waitTimedOut_idle _ hg']
    rfl

/-- A microsecond never leaves Idle. -/
theorem TickEffect.seq_of_idle (h : TickEffect s t) (hg : s.seq.stage = .idle) : t.seq = s.seq := by
  cases h with
  | held | idles => rfl
  | polls => exact pollTick_idle_seq (s := passTime 1 s) hg
  | pulses _ _ hg' | checks _ _ hg' | commits _ _ hg' => simp [hg] at hg'

theorem TickEffect.pad_of_idle (h : TickEffect s t) (hg : s.seq.stage = .idle) : t.pad = s.pad :=
  not_not.mp fun hp => (h.pad hp).2 hg

/-! The direction. -/

/-- The direction looks at `SEQ` and `LINE` alone. -/
theorem DirectionKept.of_same (h : DirectionKept s acquired) (hseq : t.seq = s.seq) (hpad : t.pad = s.pad) :
    DirectionKept t acquired := by
  rwa [DirectionKept, hseq, hpad]

/-- In a running stage the invariant settles the direction (R36 items 4 and 5), so that only Idle is left to look at. -/
theorem Inv.directionKept (hi : Inv s) (hidle : s.seq.stage = .idle → (s.pad.oe = true ↔ acquired = true))
    (hrunning : s.seq.stage ≠ .idle → acquired = true) : DirectionKept s acquired := by
  refine ⟨?_, hrunning⟩
  cases hg : s.seq.stage with
  | idle => simpa using hidle hg
  | startPulse =>
    have hpad := hi.spec.pulseDriven hg
    cases hsub : s.seq.sub <;> simp [hpad, hsub]
  | awaitSensorAck | awaitSensorReady | awaitDataStart | readBit =>
    have hpad := hi.spec.waitsReleased (by simp [hg, Stage.Waits])
    simp [hpad]
  | checksum => exact absurd hg hi.shape.noInstantStage.1
  | done => exact absurd hg hi.shape.noInstantStage.2

/-- A microsecond keeps the direction: an idle block keeps its line, and an acquisition that ends drives it. -/
theorem DirectionKept.of_tick (h : DirectionKept s acquired) (hi : Inv s) (ht : tick s = .next t) :
    DirectionKept t acquired := by
  have he := tick_effect ht
  by_cases hg : s.seq.stage = .idle
  · exact h.of_same (he.seq_of_idle hg) (he.pad_of_idle hg)
  · have hacquired : acquired = true := h.2 hg
    exact (hi.of_tick ht).directionKept (fun hidle => by simp [he.idleHigh hg hidle, hacquired]) fun _ => hacquired

/-- An asserted `rst` leaves the line released and nothing acquired (R91, R148). -/
theorem Inv.directionKept_assert (hi : Inv s) : DirectionKept (driveRst true s) false := by
  cases hr : s.rst with
  | false =>
    rw [driveRst_assert s hr]
    exact ⟨by simp [assertReset_eq, State.initial], by simp [assertReset_eq, State.initial]⟩
  | true =>
    have hsame := driveRst_same s
    rw [hr] at hsame
    rw [hsame, hi.heldInReset hr]
    exact ⟨by simp [State.initial], by simp [State.initial]⟩

/-! The next action of the host. -/

/-- The block accepts the word the host writes next (R53). -/
def Accepts (s : State) (w : Word) : Prop :=
  s.rst = false ∧ s.flags.busy = false ∧ ∃ rest, s.bus.script = .write .word 0x00 w :: rest

/-- What the next step makes of the record of acquisitions: a reset clears it, an accepted word may set it, and nothing else
touches it. -/
theorem acquiredAfterStep_cases (s : State) (acquired : Bool) :
    (∃ rest, s.bus.script = .rst true :: rest ∧ acquiredAfterStep s acquired = false) ∨
    (∃ w, Accepts s w ∧ acquiredAfterStep s acquired = (acquired || startsPulse w)) ∨
    ((∀ rest, s.bus.script ≠ .rst true :: rest) ∧ (∀ w, ¬ Accepts s w) ∧ acquiredAfterStep s acquired = acquired) := by
  unfold acquiredAfterStep Accepts
  split
  next rest hs => exact .inl ⟨rest, hs, rfl⟩
  next w rest hs =>
    by_cases hopen : s.rst = false ∧ s.flags.busy = false
    · exact .inr (.inl ⟨w, ⟨hopen.1, hopen.2, rest, hs⟩, by simp [hopen]⟩)
    · have hshut : s.rst = true ∨ s.flags.busy = true := by simpa [Decidable.imp_iff_not_or] using hopen
      refine .inr (.inr ⟨by simp [hs], fun _ ⟨hr, hb, _⟩ => hopen ⟨hr, hb⟩, ?_⟩)
      obtain h | h := hshut <;> simp [h]
  next hreset hcmd => exact .inr (.inr ⟨hreset, fun w ⟨_, _, rest, hs⟩ => hcmd w rest hs, rfl⟩)

/-- An accepted AWAIT or ACQ: the pulse of an acquisition drives the line, and nothing else touches it (R77, R95, R97). -/
theorem DirectionKept.of_exec {w : Word} {i : Instr} (h : DirectionKept s acquired) (hd : decode w = .command i)
    (hline : i ≠ .drvl ∧ i ≠ .drvh ∧ i ≠ .rel) (hr : s.rst = false) (hb : s.flags.busy = false)
    (he : exec i s = .next t) : DirectionKept t (acquired || startsPulse w) := by
  cases i with
  | drvl | drvh | rel => simp at hline
  | await level budget =>
    have hquiet : startsPulse w = false := by simp only [startsPulse, hd]
    rw [hquiet, Bool.or_false]
    cases exec_accepted hr hb he with
    | drives _ _ hi => exact absurd rfl (hi level budget)
    | polls | timesOut => exact h.of_same rfl rfl
  | acq wantH wantT =>
    have hpulse : startsPulse w = (wantH || wantT) := by simp only [startsPulse, hd]
    rw [hpulse]
    by_cases hw : (wantH || wantT) = true
    · rw [exec_acq_wanted s hr hb hw] at he
      cases he
      exact ⟨by simp [hw], fun _ => by simp [hw]⟩
    · obtain ⟨rfl, rfl⟩ : wantH = false ∧ wantT = false := by simpa using hw
      rw [exec_acq s hr hb, beginAcq_none, accept_eq] at he
      cases he
      simpa using h.of_same rfl rfl

/-- A word that is no DRVL, DRVH or REL, delivered to a block that accepts it. -/
theorem DirectionKept.of_deliverWord {w : Word} (h : DirectionKept s acquired)
    (hline : decode w ≠ .command .drvl ∧ decode w ≠ .command .drvh ∧ decode w ≠ .command .rel)
    (hr : s.rst = false) (hb : s.flags.busy = false) (ht : deliverWord w s = .next t) :
    DirectionKept t (acquired || startsPulse w) := by
  cases hd : decode w with
  | command i =>
    rw [deliverWord_command s hd] at ht
    exact h.of_exec hd (by simpa [hd] using hline) hr hb ht
  | illegal _ =>
    have hquiet : startsPulse w = false := by simp only [startsPulse, hd]
    rw [deliverWord_illegal s hd, writeGate_open s _ hr hb, illegalCommand_eq] at ht
    cases ht
    rw [hquiet, Bool.or_false]
    exact h.of_same rfl rfl

/-- A step that neither resets nor accepts a word keeps the direction. -/
theorem DirectionKept.of_stepEffect (h : DirectionKept s acquired) (hi : Inv s)
    (hreset : ∀ rest, s.bus.script ≠ .rst true :: rest) (hcmd : ∀ w, ¬ Accepts s w) (he : StepEffect s t) :
    DirectionKept t acquired := by
  cases he with
  | outside b => exact h.of_same rfl rfl
  | passes b ht => exact (h.of_tick hi ht).of_same rfl rfl
  | @drivesRst b level rest hs =>
    cases level with
    | true => exact absurd hs (hreset rest)
    | false =>
      have hsame := driveRst_false_sameOutcome s b
      exact h.of_same hsame.seq hsame.pad
  | dropped b => exact h.of_same rfl rfl
  | writes b r v =>
    rw [writeReg_eq]
    exact h.of_same rfl rfl
  | accepts b hs _ hr hb | reports b hs _ hr hb => exact absurd ⟨hr, hb, _, hs⟩ (hcmd _)

/-- Settles O50, by what the next action does to the record of acquisitions. -/
theorem acqAloneKeepsDirection : Obligations.AcqAloneKeepsDirection := by
  refine ⟨fun c b e => ⟨by simp [State.initial], by simp [State.initial]⟩, fun s t acquired hi h ht hline => ?_⟩
  obtain ⟨rest, hs, ha⟩ | ⟨w, hw, ha⟩ | ⟨hreset, hcmd, ha⟩ := acquiredAfterStep_cases s acquired <;> rw [ha]
  · rw [step_action s hs, hostStep_rst] at ht
    cases ht
    exact (hi.of_setBus _).directionKept_assert
  · obtain ⟨hr, hb, rest, hs⟩ := hw
    rw [step_cmd s hs] at ht
    exact DirectionKept.of_deliverWord
      (s := s.setBus { s.bus with script := rest, seen := Seen.nothing }) h (hline w rest hs) hr hb ht
  · exact h.of_stepEffect hi hreset hcmd (step_effect ht)

end Sys2Proof.Machine
end

section
/-! The Frame Decoder's operands: the bit decision (R102) and the conversion (R118). -/

namespace Sys2Proof.Machine

/-- Settles O34. -/
theorem bitDecision : Obligations.BitDecision := fun _ _ => decide_eq_true_iff

/-- The decision in numbers (R102). -/
theorem decideBit_eq (low high : Dur) : decideBit low high = decide (low.toNat < high.toNat) := rfl

/-- The decision on two phases measured in samples (R102): the interval does not matter. -/
theorem decideBit_ofNat {p low high : Nat} (hp : 0 < p) (hl : low * p < 65536) (hh : high * p < 65536) :
    decideBit (BitVec.ofNat 16 (low * p)) (BitVec.ofNat 16 (high * p)) = decide (low < high) := by
  rw [decideBit_eq, ofNat16_toNat hl, ofNat16_toNat hh]
  exact decide_eq_decide.mpr (Nat.mul_lt_mul_right hp)

/-- A byte in tenths fits the register: no bit of the product is lost (R118). -/
theorem convert_toNat (b : Byte) : (convert b).toNat = b.toNat * 10 := by
  have hb := b.isLt
  rw [convert, BitVec.toNat_mul, BitVec.toNat_setWidth_of_le (by decide)]
  exact Nat.mod_eq_of_lt (show b.toNat * 10 < 65536 by omega)

theorem convert_eq_ofNat (b : Byte) : convert b = BitVec.ofNat 16 (b.toNat * 10) := by
  rw [← convert_toNat, BitVec.ofNat_toNat, BitVec.setWidth_eq]

end Sys2Proof.Machine
end

section
/-! A transmission that the line carries within the budgets, received by the sequence of R94 (R101 to R106, R116). -/

namespace Sys2Proof.Machine

variable {s t : State}

/-- Where the stimulus says, the line is at its level (R9). -/
theorem Env.lineAt_of_stim {e : Env} {c : Nat} {l : Bool} (h : stimLevel e.stim c = some l) : e.lineAt c = l := by
  simp only [Env.lineAt, h]

/-- `Await` by a stimulus that shows the level within the budget (R73). -/
theorem awaitClosed_seen {b : Dur} {l : Bool} {m : Nat} (hp : 0 < s.cfg.pollUs)
    (hseen : SeenAt s.env.stim s.cfg.pollUs s.env.clock l m) (hfit : m * s.cfg.pollUs ≤ b.toNat) :
    awaitClosed b l s = (true, waited b l m s) := by
  obtain ⟨h1, hmiss, hhit⟩ := hseen
  refine awaitClosed_met h1 ((Nat.le_div_iff_mul_le hp).mpr hfit) (Env.lineAt_of_stim hhit) fun j hj1 hj => ?_
  rw [Env.lineAt_of_stim (hmiss j hj1 hj)]
  exact Bool.not_ne_self l

/-- An acquisition accepted in `s` is at the instant `c`, with no error so far. -/
structure Receiving (s : State) (wantH wantT : Bool) (c : Nat) (t : State) : Prop where
  cfg : t.cfg = s.cfg
  regs : t.regs = s.regs
  stim : t.env.stim = s.env.stim
  clock : t.env.clock = c
  now : t.now + s.env.clock = s.now + c
  wantH : t.dec.wantH = wantH
  wantT : t.dec.wantT = wantT
  noResult : t.res = Results.clear
  noError : t.err = ErrReg.clear

section
variable {wantH wantT : Bool} {c m : Nat} {b : Dur} {l : Bool}

/-- A wait of `m` samples takes its time and nothing else. -/
theorem Receiving.waited (h : Receiving s wantH wantT c t) (q : Seq) (b : Dur) (l : Bool) (m : Nat) :
    Receiving s wantH wantT (c + m * s.cfg.pollUs) (waited b l m (t.setSeq q)) := by
  have hnow := h.now
  have hclock : t.env.clock + m * t.cfg.pollUs = c + m * s.cfg.pollUs := by rw [h.clock, h.cfg]
  refine { h with clock := hclock, now := ?_ }
  show t.now + m * t.cfg.pollUs + s.env.clock = _
  rw [h.cfg]
  omega

/-- The Frame Decoder's writes do not touch the request. -/
theorem Receiving.of_setDec (h : Receiving s wantH wantT c t) {d : Decoder} (hH : d.wantH = t.dec.wantH)
    (hT : d.wantT = t.dec.wantT) : Receiving s wantH wantT c (t.setDec d) :=
  { h with wantH := hH.trans h.wantH, wantT := hT.trans h.wantT }

/-- A stage whose level the line shows within the budget goes on from there (R94). -/
theorem Receiving.stageThen_eq (h : Receiving s wantH wantT c t) (hp : 0 < s.cfg.pollUs)
    (hseen : SeenAt s.env.stim s.cfg.pollUs c l m) (hfit : m * s.cfg.pollUs ≤ b.toNat) (q : Seq) (code : ErrCode)
    (info : BitVec 6) (andThen : State → State) :
    stageThen q b l code info andThen t = andThen (Machine.waited b l m (t.setSeq q)) := by
  rw [← h.cfg] at hp hfit
  rw [← h.stim, ← h.cfg, ← h.clock] at hseen
  have hclosed : awaitClosed b l (t.setSeq q) = _ := awaitClosed_seen hp hseen hfit
  rw [stageThen, hclosed]
  rfl

end

section
variable {wantH wantT : Bool} {x : Transmission} {i : Nat}

/-- The first `i` bits of a transmission are received: each is decided, and `DUR` is the last high phase. -/
structure BitsReceived (s : State) (wantH wantT : Bool) (x : Transmission) (i : Nat) (t : State) : Prop where
  receiving : Receiving s wantH wantT (x.bitStart s.cfg.pollUs (x.firstBit s) i) t
  decided : ∀ j, j < i → t.dec.bitBuf.getLsbD j = decide (x.low j < x.high j)
  measured : ∀ j, i = j + 1 → t.et.elapsed = BitVec.ofNat 16 (x.high j * s.cfg.pollUs)

/-- The low phase of bit `i` is measured and kept (R101). -/
def Transmission.lowKept (x : Transmission) (i : Nat) (t : State) : State :=
  (Machine.waited t.regs.tBitLow true (x.low i) (t.setSeq ⟨.readBit, false, BitVec.ofNat 6 i⟩)).setDec
    { t.dec with lowDur := BitVec.ofNat 16 (x.low i * t.cfg.pollUs) }

/-- Bit `i` is received: both phases measured, the bit decided (R101, R102, R103). -/
def Transmission.bitRead (x : Transmission) (i : Nat) (t : State) : State :=
  recordBit i
    (Machine.waited t.regs.tBitHigh false (x.high i) ((x.lowKept i t).setSeq ⟨.readBit, true, BitVec.ofNat 6 i⟩))

section
variable (h : BitsReceived s wantH wantT x i t) (hc : x.CarriedBy s) (hp : 0 < s.cfg.pollUs)
include h

theorem BitsReceived.lowKept :
    Receiving s wantH wantT (x.bitStart s.cfg.pollUs (x.firstBit s) i + x.low i * s.cfg.pollUs) (x.lowKept i t) :=
  (h.receiving.waited _ t.regs.tBitLow true (x.low i)).of_setDec rfl rfl

include hc hp

/-- ReadBit goes on from bit `i` to the next one (R94). -/
theorem BitsReceived.readBits_succ {n : Nat} (hi : i + (n + 1) = 40) :
    readBits (n + 1) t = readBits n (x.bitRead i t) := by
  have hi40 : i < 40 := by omega
  have hidx : nBits - (n + 1) = i := show 40 - (n + 1) = i by omega
  have hlowFits : x.low i * s.cfg.pollUs ≤ t.regs.tBitLow.toNat := h.receiving.regs ▸ hc.lowFits i hi40
  have hhighFits : x.high i * s.cfg.pollUs ≤ t.regs.tBitHigh.toNat := h.receiving.regs ▸ hc.highFits i hi40
  rw [readBits, hidx, h.receiving.stageThen_eq hp (hc.low i hi40) hlowFits]
  exact h.lowKept.stageThen_eq hp (hc.high i hi40) hhighFits _ _ _ _

/-- The bit just read is decided by its phases. -/
theorem BitsReceived.bitRead_getLsbD (hi : i < 40) (j : Nat) :
    (x.bitRead i t).dec.bitBuf.getLsbD j = if j = i then decide (x.low i < x.high i) else t.dec.bitBuf.getLsbD j := by
  have hdecide := decideBit_ofNat hp (Nat.lt_of_le_of_lt (hc.lowFits i hi) s.regs.tBitLow.isLt)
    (Nat.lt_of_le_of_lt (hc.highFits i hi) s.regs.tBitHigh.isLt)
  rw [← h.receiving.cfg] at hdecide
  rw [← hdecide]
  exact writeBit_getLsbD t.dec.bitBuf hi _

theorem BitsReceived.next (hi : i < 40) : BitsReceived s wantH wantT x (i + 1) (x.bitRead i t) where
  receiving := by
    rw [Transmission.bitStart, Nat.add_mul, ← Nat.add_assoc]
    exact (h.lowKept.waited _ t.regs.tBitHigh false (x.high i)).of_setDec rfl rfl
  decided j hj := by
    rw [h.bitRead_getLsbD hc hp hi]
    split
    · next hji => rw [hji]
    · next hji => exact h.decided j (by omega)
  measured j hj := by
    obtain rfl := Nat.succ.inj hj
    exact congrArg (fun c => BitVec.ofNat 16 (x.high i * c.pollUs)) h.receiving.cfg

end

/-- ReadBit from bit `i` on receives the rest of the transmission, and the frame ends: induction on the bits to come. -/
theorem BitsReceived.readBits_eq (hc : x.CarriedBy s) (hp : 0 < s.cfg.pollUs) {n : Nat} (h : BitsReceived s wantH wantT x i t)
    (hi : i + n = 40) : ∃ u, BitsReceived s wantH wantT x 40 u ∧ readBits n t = afterBits u := by
  induction n generalizing i t with
  | zero =>
    obtain rfl : i = 40 := hi
    exact ⟨t, h, rfl⟩
  | succ n ih =>
    rw [h.readBits_succ hc hp hi]
    exact ih (h.next hc hp (by omega)) (by omega)

/-- The handshake: each of the three waits is met in turn (R98, R99, R100). -/
theorem Receiving.fromSensorAck_eq (hc : x.CarriedBy s) (hp : 0 < s.cfg.pollUs)
    (h : Receiving s wantH wantT s.releaseInstant t) :
    ∃ u, BitsReceived s wantH wantT x 0 u ∧ fromSensorAck t = readBits nBits u := by
  have hack := h.waited ⟨.awaitSensorAck, false, 0#6⟩ s.regs.tAck false x.ack
  have hready := hack.waited ⟨.awaitSensorReady, false, 0#6⟩ s.regs.tReady true x.ready
  have hreadyAt : s.releaseInstant + x.ack * s.cfg.pollUs + x.ready * s.cfg.pollUs =
      s.releaseInstant + (x.ack + x.ready) * s.cfg.pollUs := by rw [Nat.add_assoc, ← Nat.add_mul]
  rw [hreadyAt] at hready
  have hdata := hready.waited ⟨.awaitDataStart, false, 0#6⟩ s.regs.tDstart false x.data
  have hdataAt : s.releaseInstant + (x.ack + x.ready) * s.cfg.pollUs + x.data * s.cfg.pollUs = x.firstBit s := by
    rw [Nat.add_assoc, ← Nat.add_mul]
    rfl
  rw [hdataAt] at hdata
  refine ⟨_, ⟨hdata, nofun, nofun⟩, ?_⟩
  rw [fromSensorAck, h.regs, h.stageThen_eq hp hc.ack hc.ackFits, fromSensorReady, hack.regs,
    hack.stageThen_eq hp hc.ready hc.readyFits, fromDataStart, hready.regs, hready.stageThen_eq hp hc.data hc.dataFits]

/-- The whole of ACQ by a line that carries a transmission (R94). -/
theorem Resting.acqCommand_received (h : Resting s) (hw : (wantH || wantT) = true) (hc : x.CarriedBy s) :
    ∃ u, BitsReceived s wantH wantT x 40 u ∧ acqCommand wantH wantT (accept s) = afterBits u := by
  have hp : 0 < s.cfg.pollUs := h.grounded.legal.1.1
  have hstart : Receiving s wantH wantT s.releaseInstant (startPulse (acqBegun wantH wantT s)) := by
    rw [startPulse_eq]
    refine ⟨rfl, rfl, rfl, rfl, ?_, rfl, rfl, rfl, rfl⟩
    show s.now + s.cfg.startLowUs + s.cfg.startHighUs + s.env.clock = _
    rw [State.releaseInstant]
    omega
  obtain ⟨t, ht, heq⟩ := hstart.fromSensorAck_eq hc hp
  obtain ⟨u, hu, heq'⟩ := ht.readBits_eq hc hp (Nat.zero_add 40)
  exact ⟨u, hu, (acqCommand_accept_wanted hw).trans (heq.trans heq')⟩

/-- The buffer at the end is the one the transmission leaves. -/
theorem BitsReceived.bitBuf_eq (h : BitsReceived s wantH wantT x 40 t) {buf : BitVec 40} (hl : x.Leaves buf) :
    t.dec.bitBuf = buf :=
  BitVec.eq_of_getLsbD_eq fun j hj => (h.decided j hj).trans (hl j hj).symm

/-- What `afterBits` leaves, checksum or not. -/
theorem afterBits_eq (s : State) :
    afterBits s =
      { s with
        res := if (pack s.dec.bitBuf).valid then deliver (pack s.dec.bitBuf) s.dec else s.res
        err := if (pack s.dec.bitBuf).valid then s.err else ⟨.checksumMismatch, 0#6⟩
        pad := Pad.H
        seq := ⟨.idle, false, 0#6⟩
        flags := { s.flags with atomic := false, busy := false, done := true }
        env := { s.env with drives := (s.env.clock, Pad.H) :: s.env.drives, lastEnd := s.env.clock } } := by
  rw [← endBits_eq_afterBits]
  by_cases hv : (pack s.dec.bitBuf).valid = true
  · rw [endBits_valid s hv, if_pos hv, if_pos hv]
  · rw [endBits_invalid s hv, if_neg hv, if_neg hv]

/-- The reading of a byte in a register, if it was requested (R118, R120, R122). -/
theorem reading_toNat (want : Bool) (b : Byte) :
    (if want then convert b else 0#16).toNat = if want = true then b.toNat * 10 else 0 := by
  cases want with
  | false => rfl
  | true => exact convert_toNat b

end

/-- Settles O37: the machine's ACQ is the sequence of R94, and that receives the transmission bit by bit. -/
theorem transmissionDecoded : Obligations.TransmissionDecoded := by
  intro s wantH wantT x buf hi hr hb hw hc hl
  obtain ⟨t, ht, heq⟩ := (hi.resting hr hb).acqCommand_received hw hc
  obtain rfl := ht.bitBuf_eq hl
  obtain ⟨u, k, hexec, hrun, hnow⟩ := acqRunsAsWritten s wantH wantT hi hr hb
  rw [heq] at hrun hnow
  have hk : k = x.bitStart s.cfg.pollUs (x.firstBit s) 40 - s.env.clock := by
    have hclock := ht.receiving.now
    rw [afterBits_eq] at hnow
    change t.now = s.now + k at hnow
    omega
  refine ⟨u, afterBits t, hexec, hk ▸ hrun, ?_⟩
  rw [afterBits_eq]
  refine ⟨ht.receiving.clock, rfl, rfl, rfl, rfl, rfl, rfl, ?_, fun hv => ?_, fun hv => ?_⟩
  · exact (congrArg BitVec.toNat (ht.measured 39 rfl)).trans
      (ofNat16_toNat (Nat.lt_of_le_of_lt (hc.highFits 39 (by decide)) s.regs.tBitHigh.isLt))
  · have hvalid := (Frame.valid_iff _).mpr hv
    rw [if_pos hvalid, if_pos hvalid, ← ht.receiving.wantH, ← ht.receiving.wantT]
    exact ⟨ht.receiving.noError, rfl, rfl, rfl, reading_toNat _ _, reading_toNat _ _⟩
  · have hinvalid := mt (Frame.valid_iff _).mp hv
    rw [if_neg hinvalid, if_neg hinvalid]
    exact ⟨rfl, ht.receiving.noResult⟩

end Sys2Proof.Machine
end

section
/-! Two blocks that run the same acquisition (R114): a microsecond, whatever it does, does the same to both. -/

namespace Sys2Proof.Machine

variable {s t : State}

/-! The line. -/

/-- Driving the pad keeps the line the same to both. -/
theorem SameLine.of_drivePad (h : SameLine s t) (p : Pad) : SameLine (drivePad p s) (drivePad p t) := by
  obtain ⟨hclock, hstim, hdrives⟩ | hstim := h
  · refine .inl ⟨hclock, hstim, ?_⟩
    show (s.env.clock, p) :: s.env.drives = (t.env.clock, p) :: t.env.drives
    rw [hclock, hdrives]
  · exact .inr hstim

/-- So does a microsecond. -/
theorem SameLine.of_passTime (h : SameLine s t) : SameLine (passTime 1 s) (passTime 1 t) := by
  obtain ⟨hclock, hsame⟩ | hstim := h
  · exact .inl ⟨congrArg (· + 1) hclock, hsame⟩
  · refine .inr fun x _ => ?_
    have hnext := hstim (1 + x) (Nat.le_add_right 1 x)
    rwa [← Nat.add_assoc, ← Nat.add_assoc] at hnext

/-- The level a microsecond later is one level. -/
theorem SameLine.line_passTime (h : SameLine s t) : (passTime 1 s).line = (passTime 1 t).line := by
  show s.env.lineAt (s.env.clock + 1) = t.env.lineAt (t.env.clock + 1)
  obtain ⟨hclock, hstim, hdrives⟩ | hstim := h
  · simp only [Env.lineAt, hclock, hstim, hdrives]
  · obtain ⟨l, hs, ht⟩ := hstim 1 (Nat.le_refl 1)
    rw [Env.lineAt_of_stim hs, Env.lineAt_of_stim ht]

/-! The blocks. -/

/-- The two blocks agree on all that the outcome of the running acquisition depends on. The operands of the Edge Timer before its
first wait and a low phase that is not measured yet may still be what an earlier command left (log 20). -/
structure Alike (s t : State) : Prop where
  cfg : s.cfg = t.cfg
  released : s.rst = false ∧ t.rst = false
  regs : s.regs = t.regs
  seq : s.seq = t.seq
  pad : s.pad = t.pad
  dly : s.dly = t.dly
  res : s.res = t.res
  err : s.err = t.err
  busy : s.flags.busy = t.flags.busy
  done : s.flags.done = t.flags.done
  atomic : s.flags.atomic = t.flags.atomic
  bitBuf : s.dec.bitBuf = t.dec.bitBuf
  wantH : s.dec.wantH = t.dec.wantH
  wantT : s.dec.wantT = t.dec.wantT
  elapsed : s.et.elapsed = t.et.elapsed
  timer : s.seq.stage ≠ .startPulse → s.et = t.et
  lowDur : s.seq.sub = true → s.seq.stage = .readBit → s.dec.lowDur = t.dec.lowDur
  line : SameLine s t

/-! The ends of an acquisition and the starts of its waits. -/

theorem Alike.of_fail (h : Alike s t) (het : s.et = t.et) (code : ErrCode) (info : BitVec 6) :
    Alike (fail code info s) (fail code info t) := by
  rw [fail_eq, fail_eq]
  exact { h with
    pad := rfl, seq := rfl, busy := rfl, done := rfl, atomic := rfl, err := rfl, timer := fun _ => het, lowDur := nofun
    line := h.line.of_drivePad Pad.H }

theorem Alike.of_waitTimedOut (h : Alike s t) (het : s.et = t.et) : Alike (waitTimedOut s) (waitTimedOut t) := by
  unfold waitTimedOut
  rw [← h.seq]
  split
  · exact { h with busy := rfl, done := rfl, err := rfl }
  · exact h.of_fail het _ _
  · exact h.of_fail het _ _
  · exact h.of_fail het _ _
  · exact h.of_fail het _ _
  · exact h
  · exact h
  · exact h

theorem Alike.of_startStage (h : Alike s t) {q : Seq} {b b' : Dur} (hb : b = b') (l : Bool)
    (hlow : q.sub = true → q.stage = .readBit → s.dec.lowDur = t.dec.lowDur) :
    Alike (startStage q b l s) (startStage q b' l t) := by
  subst hb
  by_cases hf : s.cfg.pollUs ≤ b.toNat
  · rw [startStage_fits s q b l hf, startStage_fits t q b l (h.cfg ▸ hf)]
    exact { h with seq := rfl, elapsed := rfl, timer := fun _ => rfl, lowDur := hlow }
  · rw [startStage_short s q b l hf, startStage_short t q b l (h.cfg ▸ hf)]
    refine Alike.of_waitTimedOut ?_ rfl
    exact { h with seq := rfl, elapsed := rfl, timer := fun _ => rfl, lowDur := hlow }

theorem Alike.of_endBits (h : Alike s t) (het : s.et = t.et) : Alike (endBits s) (endBits t) := by
  rw [endBits_eq_afterBits, endBits_eq_afterBits, afterBits_eq, afterBits_eq]
  exact { h with
    res := by simp only [deliver, h.bitBuf, h.wantH, h.wantT, h.res]
    err := by simp only [h.bitBuf, h.err]
    pad := rfl, seq := rfl, busy := rfl, done := rfl, atomic := rfl, timer := fun _ => het, lowDur := nofun
    line := h.line.of_drivePad Pad.H }

/-! A wait that is met. -/

theorem Alike.of_lowPhaseDone (h : Alike s t) : Alike (lowPhaseDone s) (lowPhaseDone t) := by
  unfold lowPhaseDone startHighPhase
  rw [← h.seq]
  refine Alike.of_startStage ?_ (congrArg Regs.tBitHigh h.regs) false fun _ _ => h.elapsed
  exact { h with lowDur := fun _ _ => h.elapsed }

/-- The high phase of a bit decides the same bit in both, the low phase being the same (R102). -/
theorem Alike.of_recordBit (h : Alike s t) (hlow : s.dec.lowDur = t.dec.lowDur) (i : Nat) :
    Alike (recordBit i s) (recordBit i t) :=
  { h with
    bitBuf := by simp only [recordBit, State.setDec_dec, h.bitBuf, hlow, h.elapsed]
    lowDur := fun _ _ => hlow }

theorem Alike.of_highPhaseDone (h : Alike s t) (het : s.et = t.et) (hlow : s.dec.lowDur = t.dec.lowDur) :
    Alike (highPhaseDone s) (highPhaseDone t) := by
  have hbit := h.of_recordBit hlow s.seq.bitIdx.toNat
  by_cases hi : s.seq.bitIdx.toNat < 39
  · rw [highPhaseDone_next s hi, highPhaseDone_next t (h.seq ▸ hi), ← h.seq]
    exact hbit.of_startStage (congrArg Regs.tBitLow h.regs) true nofun
  · rw [highPhaseDone_last s hi, highPhaseDone_last t (h.seq ▸ hi), ← h.seq]
    exact hbit.of_endBits het

theorem Alike.of_waitMet (h : Alike s t) (het : s.et = t.et) : Alike (waitMet s) (waitMet t) := by
  unfold waitMet
  rw [← h.seq]
  split
  · exact { h with busy := rfl, done := rfl }
  · exact h.of_startStage (congrArg Regs.tReady h.regs) true nofun
  · exact h.of_startStage (congrArg Regs.tDstart h.regs) false nofun
  · exact h.of_startStage (congrArg Regs.tBitLow h.regs) true nofun
  · next hg =>
    split
    · next hs => exact h.of_highPhaseDone het (h.lowDur hs hg)
    · exact h.of_lowPhaseDone
  · exact h
  · exact h
  · exact h

/-- A microsecond of a wait: both count, or both sample the same level (R73, R79). -/
theorem Alike.of_pollTick (h : Alike s t) (het : s.et = t.et) (hline : s.line = t.line) :
    Alike (pollTick waitMet waitTimedOut s) (pollTick waitMet waitTimedOut t) := by
  have hsample : (reachSample s).et = (reachSample t).et := by rw [reachSample_eq, reachSample_eq, het, h.cfg]
  have hfits : sampleFits (reachSample s) = sampleFits (reachSample t) := by
    unfold sampleFits
    rw [hsample, show (reachSample s).cfg = (reachSample t).cfg from h.cfg]
  have hstop : (stopTimer (reachSample s)).et = (stopTimer (reachSample t)).et := by
    rw [stopTimer_eq, stopTimer_eq, hsample]
  have hended : Alike (stopTimer (reachSample s)) (stopTimer (reachSample t)) :=
    { h with elapsed := congrArg EdgeTimer.elapsed hstop, timer := fun _ => hstop }
  unfold pollTick
  dsimp only
  rw [show (reachSample t).line = (reachSample s).line from hline.symm, ← hsample, ← hfits, ← het, ← h.cfg]
  split
  · exact { h with timer := fun _ => by rw [countPoll_eq, countPoll_eq, het] }
  · split
    · exact hended.of_waitMet hstop
    · split
      · exact { h with elapsed := congrArg EdgeTimer.elapsed hsample, timer := fun _ => hsample }
      · exact hended.of_waitTimedOut hstop

/-! The start pulse. -/

theorem Alike.of_endStartHigh (h : Alike s t) : Alike (endStartHigh s) (endStartHigh t) := by
  refine Alike.of_startStage ?_ (congrArg Regs.tAck h.regs) false nofun
  exact { h with pad := rfl, line := h.line.of_drivePad Pad.Z }

theorem Alike.of_endStartLow (h : Alike s t) : Alike (endStartLow s) (endStartLow t) := by
  by_cases hz : BitVec.ofNat 16 s.cfg.startHighUs = 0#16
  · rw [endStartLow_none s hz, endStartLow_none t (h.cfg ▸ hz)]
    refine Alike.of_endStartHigh ?_
    exact { h with
      pad := rfl, seq := rfl, dly := rfl, timer := fun hn => absurd rfl hn, lowDur := fun _ => nofun
      line := h.line.of_drivePad Pad.H }
  · rw [endStartLow_high s hz, endStartLow_high t (h.cfg ▸ hz)]
    exact { h with
      pad := rfl, seq := rfl, dly := by rw [h.cfg], timer := fun hn => absurd rfl hn, lowDur := fun _ => nofun
      line := h.line.of_drivePad Pad.H }

theorem Alike.of_startPulseTick (h : Alike s t) : Alike (startPulseTick s) (startPulseTick t) := by
  have hcount : Alike (s.setDly (s.dly - 1#16)) (t.setDly (t.dly - 1#16)) := { h with dly := congrArg (· - 1#16) h.dly }
  unfold startPulseTick
  dsimp only
  rw [← hcount.dly, ← hcount.seq]
  split
  · split
    · exact hcount.of_endStartHigh
    · exact hcount.of_endStartLow
  · exact hcount

/-! A microsecond, and any number of them. -/

theorem Alike.of_passTime (h : Alike s t) : Alike (passTime 1 s) (passTime 1 t) := { h with line := h.line.of_passTime }

/-- A microsecond has a next state in both, alike again: by whether the block is busy, and with what. -/
theorem Alike.tick_next (h : Alike s t) (hs : Inv s) (ht : Inv t) :
    ∃ s' t', tick s = .next s' ∧ tick t = .next t' ∧ Alike s' t' := by
  obtain ⟨hrs, hrt⟩ := h.released
  cases hb : s.flags.busy with
  | false => exact ⟨_, _, tick_idle s hrs hb, tick_idle t hrt (h.busy ▸ hb), h.of_passTime⟩
  | true =>
    by_cases hg : s.seq.stage = .startPulse
    · have hd := hs.shape.delayRuns.mpr hg
      exact ⟨_, _, tick_pulse s hrs hb hg hd, tick_pulse t hrt (h.busy ▸ hb) (h.seq ▸ hg) (h.dly ▸ hd),
        h.of_passTime.of_startPulseTick⟩
    · have het := h.timer hg
      have hrun := hs.shape.timerRuns.mpr ⟨hb, hg⟩
      exact ⟨_, _, hs.tick_polls hb hrun, ht.tick_polls (h.busy ▸ hb) (het ▸ hrun),
        h.of_passTime.of_pollTick het h.line.line_passTime⟩

theorem Alike.runTicks_next (h : Alike s t) (hs : Inv s) (ht : Inv t) (k : Nat) :
    ∃ s' t', runTicks k s = .next s' ∧ runTicks k t = .next t' ∧ Alike s' t' := by
  induction k generalizing s t with
  | zero => exact ⟨s, t, rfl, rfl, h⟩
  | succ k ih =>
    obtain ⟨u, v, hu, hv, h'⟩ := h.tick_next hs ht
    rw [runTicks_succ s k hu, runTicks_succ t k hv]
    exact ih h' (hs.of_tick hu) (ht.of_tick hv)

/-! The acceptance. -/

/-- Acquisitions accepted by two blocks that rest begin alike: acceptance overwrites what earlier commands left (R53, R94). -/
theorem Resting.beginPulse_alike (hs : Resting s) (ht : Resting t) (hcfg : s.cfg = t.cfg) (hregs : s.regs = t.regs)
    (hline : SameLine s t) (wantH wantT : Bool) :
    Alike (beginPulse (acqBegun wantH wantT s)) (beginPulse (acqBegun wantH wantT t)) where
  cfg := hcfg
  released := ⟨hs.grounded.released, ht.grounded.released⟩
  regs := hregs
  seq := rfl
  pad := rfl
  dly := congrArg (fun c : Config => BitVec.ofNat 16 c.startLowUs) hcfg
  res := rfl
  err := rfl
  busy := rfl
  done := rfl
  atomic := rfl
  bitBuf := rfl
  wantH := rfl
  wantT := rfl
  elapsed := rfl
  timer hn := absurd rfl hn
  lowDur := nofun
  line := hline.of_drivePad Pad.L

/-- An idle block lets time pass and nothing else. -/
theorem runTicks_idle (k : Nat) {s : State} (hr : s.rst = false) (hb : s.flags.busy = false) :
    runTicks k s = .next (passTime k s) := by
  induction k generalizing s with
  | zero => rfl
  | succ k ih =>
    have hrest := ih (s := passTime 1 s) hr hb
    rw [runTicks_succ s k (tick_idle s hr hb), hrest]
    simp [passTime_eq, Nat.add_assoc, Nat.add_comm 1 k]

/-- Settles O38: with a reading requested the two runs are alike microsecond by microsecond; with none both blocks rest. -/
theorem acquisitionHasNoResidue : Obligations.AcquisitionHasNoResidue := by
  intro s₁ s₂ wantH wantT k hi₁ hi₂ hr₁ hr₂ hb₁ hb₂ hcfg hregs hline
  have h₁ := hi₁.resting hr₁ hb₁
  have h₂ := hi₂.resting hr₂ hb₂
  have hexec₁ := exec_acq s₁ hr₁ hb₁ wantH wantT
  have hexec₂ := exec_acq s₂ hr₂ hb₂ wantH wantT
  by_cases hw : (wantH || wantT) = true
  · have hu₁ := (h₁.accepted_mode (exec_accepted hr₁ hb₁ hexec₁)).inv
    have hu₂ := (h₂.accepted_mode (exec_accepted hr₂ hb₂ hexec₂)).inv
    rw [beginAcq_accept_wanted hw] at hexec₁ hexec₂ hu₁ hu₂
    obtain ⟨v₁, v₂, hrun₁, hrun₂, h⟩ := (h₁.beginPulse_alike h₂ hcfg hregs hline wantH wantT).runTicks_next hu₁ hu₂ k
    exact ⟨_, _, v₁, v₂, hexec₁, hexec₂, hrun₁, hrun₂, h.res, h.err, h.seq, h.elapsed, by rw [if_pos hw, h.bitBuf], h.busy,
      h.done, h.atomic, fun _ => h.pad⟩
  · obtain ⟨rfl, rfl⟩ : wantH = false ∧ wantT = false := by simpa using hw
    rw [beginAcq_none, accept_eq] at hexec₁ hexec₂
    exact ⟨_, _, _, _, hexec₁, hexec₂, runTicks_idle k hr₁ rfl, runTicks_idle k hr₂ rfl, rfl, rfl, h₁.seq.trans h₂.seq.symm, rfl,
      rfl, rfl, rfl, h₁.closed.trans h₂.closed.symm, nofun⟩

end Sys2Proof.Machine
end

section
/-! The rows of R115 for the handshake, for a stage that gives up, and for the last bit, each as a whole next state. -/

namespace Sys2Proof.Machine

variable {s : State}

/-- Settles O25: acceptance by what is requested, and the worked example of R95 from the reset state. -/
theorem acqNoneInvalidArgument : Obligations.AcqNoneInvalidArgument := by
  refine ⟨fun s hr hb => ?_, fun s wantH wantT hr hb hw => ?_, fun t ht => ?_⟩
  · rw [exec_acq s hr hb, beginAcq_none, accept_eq, ← hb]
  · exact ⟨_, exec_acq_wanted s hr hb hw, rfl, rfl⟩
  · rw [exec_acq State.reset rfl rfl, beginAcq_none, accept_eq] at ht
    cases ht
    decide

/-- Settles O28, by the stage: the next one starts its wait in the state the sample leaves. -/
theorem handshakeStagesAdvance : Obligations.HandshakeStagesAdvance := by
  intro s hi hs hl
  rw [hi.tick_met hs hl]
  refine ⟨fun hg hf => ?_, fun hg hf => ?_, fun hg hf => ?_⟩
  · rw [waitMet_ack s.sampled hg]
    exact congrArg _ (startStage_fits _ _ _ _ hf)
  · rw [waitMet_ready s.sampled hg]
    exact congrArg _ (startStage_fits _ _ _ _ hf)
  · rw [waitMet_data s.sampled hg]
    exact congrArg _ (startStage_fits _ _ _ _ hf)

/-- The last sample of a wait, not at the expected level: what the stage makes of its `Timeout` (R73, R115). -/
theorem Inv.tick_missedLast (hi : Inv s) (h : s.SampleNext) (hlast : s.LastSample) (hl : s.nextLine ≠ s.et.level) :
    tick s = .next (waitTimedOut s.sampled) := by
  obtain ⟨hb, hrun, hcount⟩ := h
  rw [hi.tick_polls hb hrun]
  rcases pollTick_cases (passTime 1 s) waitMet waitTimedOut with ⟨hc, -⟩ | ⟨-, he, -⟩ | ⟨-, -, hf, -⟩ | ⟨-, -, -, e⟩
  · exact absurd hcount (Nat.ne_of_lt hc)
  · exact absurd he hl
  · have hnext := (hi.pollRuns hrun).elapsed_next
    have hfit : (s.et.elapsed + BitVec.ofNat 16 s.cfg.pollUs).toNat + s.cfg.pollUs ≤ s.et.budget.toNat :=
      sampleFits_reachSample hf
    omega
  · rw [e]
    rfl

/-- Settles O29: the stage's `Timeout` is `fail` with the code and info of the stage. -/
theorem stageTimeoutsFail : Obligations.StageTimeoutsFail := by
  intro s code info hi hs hlast hl hstage
  have hfail : waitTimedOut s.sampled = fail code info s.sampled := by
    rcases hstage with ⟨hg, rfl, rfl⟩ | ⟨hg, rfl, rfl⟩ | ⟨hg, rfl, rfl⟩ | ⟨hg, rfl, rfl⟩
    · exact waitTimedOut_ack s.sampled hg
    · exact waitTimedOut_ready s.sampled hg
    · exact waitTimedOut_data s.sampled hg
    · exact waitTimedOut_bit s.sampled hg
  rw [hi.tick_missedLast hs hlast hl, hfail, fail_eq]
  rfl

/-- The Frame Decoder after the last bit, its buffer given bit by bit (R101, R103). -/
theorem waitMet_lastBit (hq : s.seq = ⟨.readBit, true, 39#6⟩) {buf : BitVec 40}
    (hbuf : ∀ j, j < 40 → buf.getLsbD j =
      if j = 39 then decide (s.dec.lowDur.toNat < s.et.elapsed.toNat) else s.dec.bitBuf.getLsbD j) :
    waitMet s = afterBits { s with dec := { s.dec with highDur := s.et.elapsed, bitBuf := buf } } := by
  have hidx : s.seq.bitIdx.toNat = 39 := by rw [hq]; rfl
  have hdecided : writeBit s.dec.bitBuf 39 (decideBit s.dec.lowDur s.et.elapsed) = buf :=
    BitVec.eq_of_getLsbD_eq fun j hj => (writeBit_getLsbD s.dec.bitBuf (by decide) _).trans (hbuf j hj).symm
  rw [waitMet_high s (congrArg Seq.stage hq) (congrArg Seq.sub hq), highPhaseDone_last s (by rw [hidx]; decide), hidx,
    hdecided, endBits_eq_afterBits]

/-- Settles O32: the sample ends the last bit, and `afterBits` is the rest of that instant. -/
theorem lastBitDeliversOrRejects : Obligations.LastBitDeliversOrRejects := by
  intro s buf hi hs hl hq hbuf
  obtain ⟨hres, herr⟩ := hi.shape.busyClear hs.1
  rw [hi.tick_met hs hl, waitMet_lastBit (s := s.sampled) hq hbuf, afterBits_eq]
  simp only [Frame.valid_iff, deliver, convert_eq_ofNat, State.sampled, hres, herr]

end Sys2Proof.Machine
end

section
/-! What an acquisition never touches (R113, R136, R158). -/

namespace Sys2Proof.Machine

variable {s t u : State}

/-- The parameters, `rst`, the host's registers, `OVR`, the bus and the stimulus are the same. -/
structure HostSideKept (s t : State) : Prop where
  cfg : t.cfg = s.cfg
  rst : t.rst = s.rst
  regs : t.regs = s.regs
  ovr : t.flags.ovr = s.flags.ovr
  bus : t.bus = s.bus
  stim : t.env.stim = s.env.stim

theorem HostSideKept.trans (h : HostSideKept s t) (k : HostSideKept t u) : HostSideKept s u :=
  ⟨k.cfg.trans h.cfg, k.rst.trans h.rst, k.regs.trans h.regs, k.ovr.trans h.ovr, k.bus.trans h.bus, k.stim.trans h.stim⟩

theorem Keeps.hostSideKept (h : Keeps s t) : HostSideKept s t := { h with }

/-- A microsecond, in reset or not. -/
theorem hostSideKept_of_tick (h : tick s = .next t) : HostSideKept s t := by
  cases hr : s.rst with
  | true =>
    rw [tick_reset s hr] at h
    cases h
    exact ⟨rfl, rfl, rfl, rfl, rfl, rfl⟩
  | false => exact { tick_keeps hr h with }

/-- A run that goes on went on from its first microsecond. -/
theorem runTicks_succ_next {k : Nat} (h : runTicks (k + 1) s = .next t) :
    ∃ u, tick s = .next u ∧ runTicks k u = .next t := by
  cases hu : tick s with
  | next u => exact ⟨u, rfl, runTicks_succ s k hu ▸ h⟩
  | fault f => simp [runTicks, hu] at h
  | refused r => simp [runTicks, hu] at h

theorem hostSideKept_of_runTicks {k : Nat} (h : runTicks k s = .next t) : HostSideKept s t := by
  induction k generalizing s with
  | zero =>
    cases h
    exact ⟨rfl, rfl, rfl, rfl, rfl, rfl⟩
  | succ k ih =>
    obtain ⟨u, hu, hrun⟩ := runTicks_succ_next h
    exact (hostSideKept_of_tick hu).trans (ih hrun)

/-- `CMD` reads 0, and `PIN` and the budgets read what the host's registers hold (R30, R31, R32). -/
theorem HostSideKept.readReg_eq (h : HostSideKept s t) {r : HostReg} (hr : r = .cmd ∨ r.Writable) :
    readReg r t = readReg r s := by
  cases r with
  | cmd => rfl
  | pin | tAck | tReady | tDstart | tBitLow | tBitHigh => simp only [readReg, h.regs]
  | status | dur | frameLo | frameHi | hum | temp => exact absurd hr (by decide)

/-- Settles O39: acceptance keeps the host's side, and so does every microsecond after it. -/
theorem acqFrame : Obligations.AcqFrame := by
  intro s u v wantH wantT k hb hexec hrun
  have h := (exec_keeps hb hexec).hostSideKept.trans (hostSideKept_of_runTicks hrun)
  exact ⟨h.cfg, h.rst, h.regs, h.ovr, h.bus, h.stim, fun r hr => h.readReg_eq (List.mem_cons.mp hr)⟩

end Sys2Proof.Machine
end

section
/-! The atomic window (R107, R108): no microsecond opens it. -/

namespace Sys2Proof.Machine

variable {s t : State}

/-- The window is closed. -/
abbrev State.Closed (s : State) : Prop := s.flags.atomic = false

theorem waitTimedOut_closed (h : s.Closed) : (waitTimedOut s).Closed := by
  unfold waitTimedOut
  split
  · exact h
  · rfl
  · rfl
  · rfl
  · rfl
  · exact h
  · exact h
  · exact h

theorem startStage_closed {q : Seq} {b : Dur} {l : Bool} (h : s.Closed) : (startStage q b l s).Closed := by
  by_cases hf : s.cfg.pollUs ≤ b.toNat
  · rw [startStage_fits s q b l hf]
    exact h
  · rw [startStage_short s q b l hf]
    exact waitTimedOut_closed h

theorem checkFrame_closed (h : s.Closed) : (checkFrame s).Closed := by
  by_cases hv : (pack s.dec.bitBuf).valid = true
  · rw [checkFrame_valid s hv, commit_eq]
    exact h
  · rw [checkFrame_invalid s hv]
    rfl

theorem endBits_closed : (endBits s).Closed := checkFrame_closed rfl

theorem lowPhaseDone_closed (h : s.Closed) : (lowPhaseDone s).Closed := by
  unfold lowPhaseDone startHighPhase
  exact startStage_closed h

theorem highPhaseDone_closed (h : s.Closed) : (highPhaseDone s).Closed := by
  unfold highPhaseDone startLowPhase
  dsimp only
  split
  · exact startStage_closed h
  · exact endBits_closed

theorem waitMet_closed (h : s.Closed) : (waitMet s).Closed := by
  unfold waitMet
  split
  · exact h
  · exact startStage_closed h
  · exact startStage_closed h
  · exact startStage_closed h
  · split
    · exact highPhaseDone_closed h
    · exact lowPhaseDone_closed h
  · exact h
  · exact h
  · exact h

theorem pollTick_closed (h : s.Closed) : (pollTick waitMet waitTimedOut s).Closed := by
  rcases pollTick_cases s waitMet waitTimedOut with ⟨-, e⟩ | ⟨-, -, e⟩ | ⟨-, -, -, e⟩ | ⟨-, -, -, e⟩ <;> rw [e]
  · exact h
  · exact waitMet_closed h
  · exact h
  · exact waitTimedOut_closed h

theorem endStartHigh_closed (h : s.Closed) : (endStartHigh s).Closed := by
  rw [endStartHigh_eq]
  exact startStage_closed h

theorem startPulseTick_closed (h : s.Closed) : (startPulseTick s).Closed := by
  rcases startPulseTick_cases s with ⟨-, e⟩ | ⟨-, -, e⟩ | ⟨-, -, e⟩ <;> rw [e]
  · exact h
  · exact endStartHigh_closed h
  · by_cases hz : BitVec.ofNat 16 s.cfg.startHighUs = 0#16
    · rw [endStartLow_none { s with dly := 0#16 } hz]
      exact endStartHigh_closed h
    · rw [endStartLow_high { s with dly := 0#16 } hz]
      exact h

theorem TickEffect.closed (he : TickEffect s t) (h : s.Closed) : t.Closed := by
  cases he with
  | held | idles => exact h
  | polls => exact pollTick_closed (s := passTime 1 s) h
  | pulses => exact startPulseTick_closed (s := passTime 1 s) h
  | checks => exact checkFrame_closed (s := passTime 1 s) h
  | commits =>
    rw [commit_eq]
    exact h

/-- Driving `rst` closes the window or leaves it. -/
theorem driveRst_closed (h : s.Closed) (level : Bool) : (driveRst level s).Closed := by
  unfold driveRst
  split
  · exact h
  · split
    · rfl
    · exact h

/-- Of the commands a block accepts only ACQ with a reading requested opens the window (R107). -/
theorem Accepted.opens {i : Instr} (ha : Accepted s i t) (h : s.Closed) (ht : t.flags.atomic = true) :
    ∃ wantH wantT, i = .acq wantH wantT ∧ (wantH || wantT) = true := by
  cases ha with
  | pulses hw => exact ⟨_, _, rfl, hw⟩
  | drives | polls | timesOut | wantsNothing => exact absurd ht (by simp [h])

/-- Settles O47: of the effects of a step only the acceptance of ACQ opens the window; and in the invariant, which the step
keeps, an idle block has it closed. -/
theorem windowDiscipline : Obligations.WindowDiscipline := by
  constructor
  · intro s t h hclosed hopen
    have hcontra : ¬ t.Closed := by simp [hopen]
    cases step_effect h with
    | outside b => exact absurd hclosed hcontra
    | passes b ht => exact absurd ((tick_effect ht).closed hclosed) hcontra
    | @drivesRst b level => exact absurd (driveRst_closed (s := s.setBus b) hclosed level) hcontra
    | dropped b => exact absurd hclosed hcontra
    | writes b r v =>
      rw [writeReg_eq] at hcontra
      exact absurd hclosed hcontra
    | @accepts b w rest i _ hs hd hr hb he =>
      obtain ⟨wantH, wantT, rfl, hw⟩ := (exec_accepted (s := s.setBus b) hr hb he).opens hclosed hopen
      exact ⟨hr, hb, w, rest, wantH, wantT, hs, hd, hw⟩
    | reports b =>
      rw [illegalCommand_eq] at hcontra
      exact absurd hclosed hcontra
  · intro s t hi h hb
    have ht := hi.of_step (step_effect h)
    exact ht.closed_of_idle (ht.stage_idle hb)

end Sys2Proof.Machine
end

section
/-! The sequencer moves along the rows of R115 (R96, R112): where each row leads. -/

namespace Sys2Proof.Machine

variable {s t : State}

/-- `SEQ` in Idle (R12). -/
abbrev Seq.atIdle : Seq := ⟨.idle, false, 0#6⟩

/-- A stage that waits gives up to Idle. -/
theorem waitTimedOut_seq (hg : s.seq.stage.Waits) : (waitTimedOut s).seq = Seq.atIdle := by
  obtain hg | hg | hg | hg := hg
  · rw [waitTimedOut_ack s hg, fail_eq]
  · rw [waitTimedOut_ready s hg, fail_eq]
  · rw [waitTimedOut_data s hg, fail_eq]
  · rw [waitTimedOut_bit s hg, fail_eq]

/-- A stage that starts its wait stands there, or has given up for want of a budget (R83). -/
theorem startStage_seq {q : Seq} (hq : q.stage.Waits) (b : Dur) (l : Bool) :
    (startStage q b l s).seq = q ∨ (b.toNat < s.cfg.pollUs ∧ (startStage q b l s).seq = Seq.atIdle) := by
  by_cases hf : s.cfg.pollUs ≤ b.toNat
  · exact .inl (by rw [startStage_fits s q b l hf])
  · refine .inr ⟨Nat.lt_of_not_le hf, ?_⟩
    rw [startStage_short s q b l hf]
    exact waitTimedOut_seq hq

theorem endBits_seq : (endBits s).seq = Seq.atIdle := by
  rw [endBits_eq_afterBits, afterBits_eq]

/-- The rows of R115 between the release of the line and the last bit, Idle apart. -/
def Seq.Advances (q r : Seq) : Prop :=
  (q.stage = .awaitSensorAck ∧ r = ⟨.awaitSensorReady, false, 0#6⟩) ∨
  (q.stage = .awaitSensorReady ∧ r = ⟨.awaitDataStart, false, 0#6⟩) ∨
  (q.stage = .awaitDataStart ∧ r = ⟨.readBit, false, 0#6⟩) ∨
  (q.stage = .readBit ∧ q.sub = false ∧ r = ⟨.readBit, true, q.bitIdx⟩) ∨
  (q.stage = .readBit ∧ q.sub = true ∧ q.bitIdx.toNat < 39 ∧ r = ⟨.readBit, false, q.bitIdx + 1#6⟩)

/-- A stage whose start is a row of the table moves along it, or gives up. -/
theorem Seq.Advances.of_startStage {p q : Seq} (h : p.Advances q) (hq : q.stage.Waits) (b : Dur) (l : Bool) :
    p.Advances (startStage q b l s).seq ∨ (startStage q b l s).seq = Seq.atIdle := by
  obtain he | ⟨-, he⟩ := startStage_seq (s := s) hq b l
  · exact .inl (he.symm ▸ h)
  · exact .inr he

/-- A wait that is met moves along a row, or ends the acquisition. -/
theorem waitMet_seq (hg : s.seq.stage.Waits) : s.seq.Advances (waitMet s).seq ∨ (waitMet s).seq = Seq.atIdle := by
  obtain hg | hg | hg | hg := hg
  · rw [waitMet_ack s hg]
    exact Seq.Advances.of_startStage (.inl ⟨hg, rfl⟩) (.inr (.inl rfl)) _ _
  · rw [waitMet_ready s hg]
    exact Seq.Advances.of_startStage (.inr (.inl ⟨hg, rfl⟩)) (.inr (.inr (.inl rfl))) _ _
  · rw [waitMet_data s hg]
    exact Seq.Advances.of_startStage (.inr (.inr (.inl ⟨hg, rfl⟩))) (.inr (.inr (.inr rfl))) _ _
  · cases hsub : s.seq.sub with
    | false =>
      rw [waitMet_low s hg hsub]
      exact Seq.Advances.of_startStage (.inr (.inr (.inr (.inl ⟨hg, hsub, rfl⟩)))) (.inr (.inr (.inr rfl))) _ _
    | true =>
      rw [waitMet_high s hg hsub]
      by_cases hi : s.seq.bitIdx.toNat < 39
      · rw [highPhaseDone_next s hi]
        exact Seq.Advances.of_startStage (.inr (.inr (.inr (.inr ⟨hg, hsub, hi, rfl⟩)))) (.inr (.inr (.inr rfl))) _ _
      · rw [highPhaseDone_last s hi]
        exact .inr endBits_seq

/-- A microsecond of a stage that waits. -/
theorem pollTick_seq (hg : s.seq.stage.Waits) :
    (pollTick waitMet waitTimedOut s).seq = s.seq ∨ s.seq.Advances (pollTick waitMet waitTimedOut s).seq ∨
      (pollTick waitMet waitTimedOut s).seq = Seq.atIdle := by
  rcases pollTick_cases s waitMet waitTimedOut with ⟨-, e⟩ | ⟨-, -, e⟩ | ⟨-, -, -, e⟩ | ⟨-, -, -, e⟩ <;> rw [e]
  · exact .inl rfl
  · exact .inr (waitMet_seq (s := stopTimer (reachSample s)) hg)
  · exact .inl rfl
  · exact .inr (.inr (waitTimedOut_seq (s := stopTimer (reachSample s)) hg))

/-- Where the end of the pulse leads: stage 2, or Idle for want of a budget (R97, R98). -/
theorem endStartHigh_seq :
    (endStartHigh s).seq = ⟨.awaitSensorAck, false, 0#6⟩ ∨
      s.regs.tAck.toNat < s.cfg.pollUs ∧ (endStartHigh s).seq = Seq.atIdle := by
  rw [endStartHigh_eq]
  exact startStage_seq (.inl rfl) _ _

/-- A microsecond of the start pulse: it goes on, the high half begins, or it is over (R97). -/
theorem startPulseTick_seq (hlen : s.cfg.startHighUs < 65536) :
    (startPulseTick s).seq = s.seq ∨
    (s.seq.sub = false ∧ s.cfg.startHighUs ≠ 0 ∧ (startPulseTick s).seq = ⟨.startPulse, true, 0#6⟩) ∨
    ((s.seq.sub = true ∨ s.cfg.startHighUs = 0) ∧
      ((startPulseTick s).seq = ⟨.awaitSensorAck, false, 0#6⟩ ∨
        s.regs.tAck.toNat < s.cfg.pollUs ∧ (startPulseTick s).seq = Seq.atIdle)) := by
  rcases startPulseTick_cases s with ⟨-, e⟩ | ⟨-, hsub, e⟩ | ⟨-, hsub, e⟩ <;> rw [e]
  · exact .inl rfl
  · exact .inr (.inr ⟨.inl hsub, endStartHigh_seq⟩)
  · obtain hzero | hpos := Nat.eq_zero_or_pos s.cfg.startHighUs
    · rw [endStartLow_none { s with dly := 0#16 } (by rw [hzero])]
      exact .inr (.inr ⟨.inr hzero, endStartHigh_seq⟩)
    · rw [endStartLow_high { s with dly := 0#16 } (ofNat16_ne_zero hpos hlen)]
      exact .inr (.inl ⟨hsub, Nat.ne_of_gt hpos, rfl⟩)

/-- Outside ReadBit a stage that waits has `SUB` and `BITIDX` 0 (R14, R15). -/
theorem Seq.Waiting.eq_of_stage {q : Seq} (h : q.Waiting) {g : Stage} (hg : q.stage = g) (hn : g ≠ .readBit) :
    q = ⟨g, false, 0#6⟩ := by
  subst hg
  have hsub : q.sub = false := by simpa [hn] using h.subPlace
  rw [← hsub, ← h.bitIdxPlace hn]

/-- What the sequencer may do in one instant, reset apart: the rows of the table, Idle reached from any stage that waits. -/
def SeqMoves (s t : State) : Prop :=
  t.seq = s.seq ∨
  (s.seq = Seq.atIdle ∧ t.seq = ⟨.startPulse, false, 0#6⟩) ∨
  (s.seq = ⟨.startPulse, false, 0#6⟩ ∧ s.cfg.startHighUs ≠ 0 ∧ t.seq = ⟨.startPulse, true, 0#6⟩) ∨
  (s.seq.stage = .startPulse ∧ (s.seq.sub = true ∨ s.cfg.startHighUs = 0) ∧
    (t.seq = ⟨.awaitSensorAck, false, 0#6⟩ ∨ s.regs.tAck.toNat < s.cfg.pollUs ∧ t.seq = Seq.atIdle)) ∨
  (s.seq.Waiting ∧ s.seq.Advances t.seq) ∨
  (s.seq.stage.Waits ∧ t.seq = Seq.atIdle)

/-- A microsecond, by the mode of the block. -/
theorem Inv.tick_seqMoves (hi : Inv s) (h : tick s = .next t) : SeqMoves s t := by
  have he := tick_effect h
  cases he with
  | held | idles => exact .inl rfl
  | polls hr _ _ hg =>
    obtain hidle | hwaits := hg
    · exact .inl (pollTick_idle_seq (s := passTime 1 s) hidle)
    · obtain hsame | hrow | hend := pollTick_seq (s := passTime 1 s) hwaits
      · exact .inl hsame
      · exact .inr (.inr (.inr (.inr (.inl ⟨(hi.sensing hr hwaits).seq, hrow⟩))))
      · exact .inr (.inr (.inr (.inr (.inr ⟨hwaits, hend⟩))))
  | pulses hr _ hg =>
    have hseq := (hi.pulsing hr hg).seq
    obtain hsame | ⟨hsub, hhigh, hnext⟩ | hover :=
      startPulseTick_seq (s := passTime 1 s) (Nat.lt_succ_of_le hi.shape.legal.2.2.1)
    · exact .inl hsame
    · change s.seq.sub = false at hsub
      exact .inr (.inr (.inl ⟨by rw [hseq, hsub], hhigh, hnext⟩))
    · exact .inr (.inr (.inr (.inl ⟨hg, hover⟩)))
  | checks _ _ hg => exact absurd hg hi.shape.noInstantStage.1
  | commits _ _ hg => exact absurd hg hi.shape.noInstantStage.2

/-- An accepted command leaves Idle only for the start pulse. -/
theorem Accepted.seqMoves {i : Instr} (ha : Accepted s i t) (hidle : s.seq = Seq.atIdle) : SeqMoves s t := by
  cases ha with
  | pulses => exact .inr (.inl ⟨hidle, rfl⟩)
  | drives | polls | timesOut | wantsNothing => exact .inl rfl

/-- A step, reset apart. -/
theorem Inv.step_seqMoves (hi : Inv s) (h : StepEffect s t) (hn : ∀ rest, s.bus.script ≠ .rst true :: rest) :
    SeqMoves s t := by
  cases h with
  | outside b => exact .inl rfl
  | @passes b u ht =>
    show SeqMoves s u
    exact hi.tick_seqMoves ht
  | @drivesRst b level rest hs =>
    cases level with
    | true => exact absurd hs (hn rest)
    | false => exact .inl (driveRst_false_sameOutcome s b).seq
  | dropped b => exact .inl rfl
  | writes b r v =>
    rw [writeReg_eq]
    exact .inl rfl
  | accepts b _ _ hr hb he => exact (exec_accepted (s := s.setBus b) hr hb he).seqMoves (hi.resting hr hb).seq
  | reports b =>
    rw [illegalCommand_eq]
    exact .inl rfl

/-- Settles O49: the moves of a step, with the whole `SEQ` of the stage they start from. -/
theorem sequencerMovesInOrder : Obligations.SequencerMovesInOrder := by
  intro s t hi h hn
  obtain hsame | hstart | hhigh | hover | ⟨hq, hrow⟩ | hend := hi.step_seqMoves (step_effect h) hn
  · exact .inl hsame
  · exact .inr (.inl hstart)
  · exact .inr (.inr (.inl hhigh))
  · exact .inr (.inr (.inr (.inl hover)))
  · obtain ⟨hg, ht⟩ | ⟨hg, ht⟩ | ⟨hg, ht⟩ | hbit := hrow
    · exact .inr (.inr (.inr (.inr (.inl ⟨hq.eq_of_stage hg nofun, ht⟩))))
    · exact .inr (.inr (.inr (.inr (.inr (.inl ⟨hq.eq_of_stage hg nofun, ht⟩)))))
    · exact .inr (.inr (.inr (.inr (.inr (.inr (.inl ⟨hq.eq_of_stage hg nofun, ht⟩))))))
    · obtain hlow | hhigh := hbit
      · exact .inr (.inr (.inr (.inr (.inr (.inr (.inr (.inl hlow)))))))
      · exact .inr (.inr (.inr (.inr (.inr (.inr (.inr (.inr (.inl hhigh))))))))
  · exact .inr (.inr (.inr (.inr (.inr (.inr (.inr (.inr (.inr hend))))))))

end Sys2Proof.Machine
end

section
/-! The value conversion (R118): the bounds of the tenths that a byte gives. -/

namespace Sys2Proof.Machine

/-- Settles O35: no bit of the product is lost, and the largest byte gives 2550 tenths. -/
theorem conversionExact : Obligations.ConversionExact := by
  intro b
  have htenths : (convert b).toNat = b.toNat * 10 := convert_toNat b
  have hbyte : b.toNat < 256 := b.isLt
  exact ⟨htenths, by omega⟩

end Sys2Proof.Machine
end

section
/-! A host within its duties (R132, R152 to R154, R162): its accesses exist, and it writes to an idle block only, so that no write
marks an overrun. -/

namespace Sys2Proof.Machine

variable {s t : State}

/-! What a duty says of an access. -/

theorem hostDuty_wellFormed {a : HostAction} (h : hostDuty s a = true) : a.WellFormed := by
  cases a with
  | write size off v =>
    by_contra hw
    simp [hostDuty, (HostReg.accessed_eq_none_iff size off).mpr hw] at h
  | read size off =>
    by_contra hw
    simp [hostDuty, (HostReg.accessed_eq_none_iff size off).mpr hw] at h
  | wait | gap | rst => trivial

/-- A write within the duties meets an idle block (R153). -/
theorem idle_of_hostDuty_write {size : Size} {off : Nat} {v : Word} (h : hostDuty s (.write size off v) = true) :
    s.flags.busy = false := by
  unfold hostDuty at h
  dsimp only at h
  split at h
  · simp only [Bool.and_eq_true, Bool.not_eq_true'] at h
    exact h.1
  · cases h

/-! What each action does to `OVR`. -/

/-- A write to an idle block leaves `OVR`, in reset or not, whatever the register. -/
theorem hostWrite_ovr_of_idle {r : HostReg} {v : Word} (hb : s.flags.busy = false) (h : hostWrite r v s = .next t) :
    t.flags.ovr = s.flags.ovr := by
  by_cases hc : r = .cmd
  · subst hc
    exact (deliverWord_keeps hb h).ovr
  · rw [hostWrite_register s r v hc] at h
    cases h
    cases hr : s.rst with
    | true => rw [writeGate_reset s _ hr]
    | false => rw [writeGate_open s _ hr hb, writeReg_eq]

theorem noteWrite_flags (r : HostReg) (s : State) : (noteWrite r s).flags = s.flags := by rw [noteWrite_eq]

theorem hostStep_write_ovr_of_idle {size : Size} {off : Nat} {v : Word} {rest : List HostAction} (hb : s.flags.busy = false)
    (h : hostStep (.write size off v) rest s = .next t) : t.flags.ovr = s.flags.ovr := by
  obtain ⟨r, -, hw⟩ := hostStep_write_next h
  have hflags : (noteWrite r (popAction rest s)).flags = s.flags := noteWrite_flags r _
  rw [hostWrite_ovr_of_idle ((congrArg Flags.busy hflags).trans hb) hw, hflags]

/-- Driving `rst` clears `OVR` or leaves it (R148). -/
theorem driveRst_safe (level : Bool) (h : s.Safe) : (driveRst level s).Safe := by
  unfold driveRst
  split
  · exact h
  · split
    · rfl
    · exact h

/-- Of the host's actions only a write can mark an overrun, and only while busy (R43). -/
theorem hostStep_safe {a : HostAction} {rest : List HostAction} (hs : s.Safe)
    (hidle : ∀ size off v, a = .write size off v → s.flags.busy = false) (h : hostStep a rest s = .next t) : t.Safe := by
  cases a with
  | write size off v => exact (hostStep_write_ovr_of_idle (hidle size off v rfl) h).trans hs
  | read size off =>
    obtain ⟨r, -, rfl⟩ := hostStep_read_next h
    exact hs
  | wait =>
    simp only [hostStep] at h
    split at h
    · exact (tick_ovr h).trans hs
    · cases h
      exact hs
  | gap n =>
    cases n with
    | zero =>
      cases h
      exact hs
    | succ n => exact (tick_ovr h).trans hs
  | rst level =>
    cases h
    exact driveRst_safe (s := popAction rest s) level hs

/-- Settles O45: with no action to come a microsecond passes; an action within the duties has a meaning, so it goes on, and if it
is a write the block is idle. -/
theorem dutifulHostNeverOverruns : Obligations.DutifulHostNeverOverruns := by
  intro s hi hs hd
  unfold nextActionDutiful at hd
  cases hscript : s.bus.script with
  | nil =>
    obtain ⟨t, ht⟩ := hi.tick_next
    exact ⟨t, (step_empty s hscript).trans ht, (tick_ovr ht).trans hs⟩
  | cons a rest =>
    have hduty : hostDuty s a = true := by simpa only [hscript] using hd
    obtain ⟨t, ht⟩ := hi.hostStep_next rest (hostDuty_wellFormed hduty)
    refine ⟨t, (step_action s hscript).trans ht, hostStep_safe hs ?_ ht⟩
    rintro size off v rfl
    exact idle_of_hostDuty_write hduty

end Sys2Proof.Machine
end

section
/-! Reset asserted at any instant (R148, R150): whatever ran, the block stands at its reset values. -/

namespace Sys2Proof.Machine

variable {s : State}

/-- Under legal parameters the registers reset to the constants of R35. -/
theorem Regs.initial_eq_of_legal {c : Config} (hc : c.Legal) :
    Regs.initial c = ⟨0#32, 40#16, 80#16, 80#16, 65#16, 75#16⟩ := by
  obtain ⟨-, -, -, ⟨hack, hready, hdstart, hlow, hhigh⟩, -⟩ := hc
  simp only [Regs.initial, hack, hready, hdstart, hlow, hhigh]

/-- An asserted `rst` asks nothing about what the block is doing. -/
theorem step_rst_assert {rest : List HostAction} (hr : s.rst = false) (h : s.bus.script = .rst true :: rest) :
    step s = .next (assertReset (popAction rest s)) := by
  rw [step_action s h, hostStep_rst, driveRst_assert (popAction rest s) hr]

/-- Settles O53: the step is `assertReset` in every state, busy or idle, and by `assertReset_eq` that is the reset state with what
lies outside the block; the legal parameters give the budgets their constants. -/
theorem resetAbandonsCommand : Obligations.ResetAbandonsCommand := by
  intro s rest hc hr h
  refine ⟨_, (step_rst_assert hr h).trans (congrArg Host.Outcome.next (assertReset_eq _)), ?_⟩
  have hregs : Regs.initial s.cfg = _ := Regs.initial_eq_of_legal hc
  exact ⟨rfl, rfl, rfl, rfl, rfl, rfl, rfl, rfl, rfl, rfl, hregs, rfl, rfl, rfl⟩

end Sys2Proof.Machine
end
